-- ==== Sys2Proof/Word.lean ====
section
/-! DEFINITION. The words of the FrameDecoder: bytes, frames, texts, and the levels of the input ports at one edge. -/

namespace Sys2Proof

/-- One byte of a frame, or the length port (R102, R200). -/
abbrev Byte := BitVec 8

/-- The value of the port `in_frame`: 14 bytes, byte `k` at bits `8k+7:8k` (R102, R201). -/
abbrev Frame := BitVec 112

/-- A string: a finite sequence of Unicode code points (R10). -/
abbrev Text := List Nat

/-- The levels on the block's input ports at one rising edge of `clk` (R102). -/
structure Edge where
  /-- `rst`: synchronous reset, active high. -/
  rst : Bool
  /-- `start`: request one DECODE at this edge. -/
  start : Bool
  /-- `in_len`: the length of the presented byte sequence. -/
  inLen : Byte
  /-- `in_frame`: the 14 frame bytes. -/
  inFrame : Frame
  /-- The inputs that this edge samples meet setup and hold (R805): `rst`, and `start` unless `rst` is 1, at every edge; `in_len` and
  `in_frame` only where the command is DECODE, for RESET and IDLE do not sample them (R206, R401, R800). One flag for all of them is the
  model's choice, log 12. -/
  stable : Bool
  deriving DecidableEq, Repr

end Sys2Proof
end

