-- ==== Sys2Proof/Machine/State.lean ====
section
/-! DEFINITION. The state of the block: the result register RES, the input ports, and the host's script; faults and refusals. -/

namespace Sys2Proof.Machine

/-- The result register `RES` (R103): one field per output, in the order of `res_word`. The reserved bits 63:54 are hard-wired to zero and
have no field (`Res.word`). -/
structure Res where
  /-- `VALID`, bit 0 (R104). -/
  valid : Bool
  /-- `KIND`, bits 2:1 (R105). -/
  kind : BitVec 2
  /-- `SIGN_EMPTY`, bit 3 (R106). -/
  signEmpty : Bool
  /-- `SIGN_CHAR`, bits 11:4 (R107). -/
  signChar : Byte
  /-- `VAL_OL`, bit 12 (R108). -/
  valOl : Bool
  /-- `VAL_MANT`, bits 26:13 (R109). -/
  valMant : BitVec 14
  /-- `VAL_SCALE`, bits 28:27 (R110). -/
  valScale : BitVec 2
  /-- `PREFIX`, bits 31:29 (R111). -/
  pfx : BitVec 3
  /-- `MODE`, bits 35:32 (R112). -/
  mode : BitVec 4
  /-- `STATUS`, bits 45:36 (R113). -/
  status : BitVec 10
  /-- `BAR_RAW`, bits 53:46 (R114). -/
  barRaw : Byte
  deriving DecidableEq, Repr

/-- The reset value of every field of `RES` (R103). -/
def Res.cleared : Res :=
  { valid := false, kind := 0, signEmpty := false, signChar := 0, valOl := false, valMant := 0, valScale := 0,
    pfx := 0, mode := 0, status := 0, barRaw := 0 }

/-- The state of the block and of its input ports before a rising edge of `clk`. -/
structure State where
  /-- The result register (R100, R103). -/
  res : Res
  /-- The levels now on the input ports; `inFrame` is the frame space (R102, R200). -/
  ports : Edge
  /-- The levels the host presents at the edges after this one, the next one first (R6, R318). Log 1. -/
  script : List Edge
  /-- The model's own: which free value the next edge that violates setup or hold takes (R805, U9). Log 4. -/
  freeIndex : Nat
  deriving DecidableEq, Repr

/-- Why a step of the model, or a reading of its result, stops. The block itself has no fault (R706): each of these is a state that no
rule writes, in which the spec asks a model to stop. Each is safe: the model stops where the block has no behaviour. -/
inductive Fault where
  /-- Raised by VAL_NUM on a byte that is no digit character: the value parse failed (R706, U3). Safe. -/
  | parseFailure
  /-- Raised by reading a result whose KIND is 3 (U10, D29). Safe. -/
  | kindCode
  /-- Raised by UNIT, and by reading the unit, when PREFIX is 6 or 7 (U11, D29). Safe. -/
  | pfxCode
  /-- Raised by UNIT, and by reading the unit, when MODE is 9 to 15 (U11, D29). Safe. -/
  | modeCode
  /-- Raised by reading a `res_word` with one of its bits 63:54 set (U12). Safe. -/
  | reservedBits
  deriving DecidableEq, Repr

/-- Why the model declines an instruction. -/
inductive Refusal where
  /-- Raised by an arm of `exec` whose instruction has no meaning yet; no arm does. Safe. -/
  | notModelled (mnemonic : String)
  deriving DecidableEq, Repr

/-- The outcome of one instruction. -/
abbrev Result := Host.Outcome State Fault Refusal

/-- Inputs at rest: CTRL = 00 and zeros. The spec gives an input no reset value; DESIGN CHOICE, log 2. -/
def restingPorts : Edge := { rst := false, start := false, inLen := 0, inFrame := 0, stable := true }

/-- The block right after a RESET edge: every field of RES at its reset value (R103, R800), the inputs at rest and nothing scripted. -/
def State.reset : State := { res := Res.cleared, ports := restingPorts, script := [], freeIndex := 0 }

end Sys2Proof.Machine
end

