-- ==== Sys2Proof/Machine/Rom.lean ====
section
/-! DEFINITION. The lookup ROMs (R120 to R125) and the three decoders that read them: the unit-prefix decoder, the mode decoder and the
nano override; and the unit string. The ROMs are constants: no command writes them (R125). -/

namespace Sys2Proof.Machine

/-- The ten status tags, opaque names (R12, R120, N12). -/
inductive StatusTag where
  | BPN | HOLD | REL | AC | DC | AUTO | BATT | APO | MIN | MAX
  deriving DecidableEq, Repr

/-- An entry of ROM.STATUS: its tag, the frame byte it tests, and the mask of the bit (R120). -/
structure StatusEntry where
  tag : StatusTag
  byte : Fin 14
  mask : Byte
  deriving DecidableEq, Repr

/-- ROM.STATUS, in the fixed table order: entry i is bit i of RES.STATUS (R120). -/
def romStatus : List StatusEntry :=
  [ { tag := .BPN, byte := 7, mask := 0x01 },
    { tag := .HOLD, byte := 7, mask := 0x02 },
    { tag := .REL, byte := 7, mask := 0x04 },
    { tag := .AC, byte := 7, mask := 0x08 },
    { tag := .DC, byte := 7, mask := 0x10 },
    { tag := .AUTO, byte := 7, mask := 0x20 },
    { tag := .BATT, byte := 8, mask := 0x04 },
    { tag := .APO, byte := 8, mask := 0x08 },
    { tag := .MIN, byte := 8, mask := 0x10 },
    { tag := .MAX, byte := 8, mask := 0x20 } ]

/-- ROM.PREFIX: (mask of byte 9, code), in evaluation order M, k, m, µ (R121). -/
def romPfx : List (Byte × BitVec 3) := [(0x10, 1), (0x20, 2), (0x40, 3), (0x80, 4)]

/-- The code of prefix n, the override entry of ROM.PREFIX (R121). -/
def pfxCodeNano : BitVec 3 := 5

/-- The mask of the nano bit in byte 8 (R121). -/
def nanoMask : Byte := 0x02

/-- ROM.MODE: (mask of byte 10, code), in evaluation order °F, °C, F, Hz, hFE, Ω, A, V (R122). -/
def romMode : List (Byte × BitVec 4) :=
  [(0x01, 1), (0x02, 2), (0x04, 3), (0x08, 4), (0x10, 5), (0x20, 6), (0x40, 7), (0x80, 8)]

/-- The code of mode F, farad (R122). -/
def modeCodeFarad : BitVec 4 := 3

/-- ROM.PREFIX_STR: entry c is the string of prefix code c: none, M, k, m, µ (U+00B5), n (R123). -/
def romPfxStr : List Text := [[], [0x4D], [0x6B], [0x6D], [0xB5], [0x6E]]

/-- ROM.MODE_STR: entry c is the string of mode code c: none, °F, °C, F, Hz, hFE, Ω (U+03A9), A, V (R124). -/
def romModeStr : List Text :=
  [[], [0xB0, 0x46], [0xB0, 0x43], [0x46], [0x48, 0x7A], [0x68, 0x46, 0x45], [0x3A9], [0x41], [0x56]]

/-- Last-match-wins: each entry whose bit is set overwrites the earlier result (R12). -/
def lastMatch (b : Byte) (initial : BitVec n) (rom : List (Byte × BitVec n)) : BitVec n :=
  rom.foldl (fun code e => if b &&& e.1 ≠ 0 then e.2 else code) initial

/-- PREFIX_DECODE: the last-match-wins prefix decoder of byte 9 (R511). -/
def pfxDecode (s3 : Byte) : BitVec 3 := lastMatch s3 0 romPfx

/-- MODE_DECODE: the last-match-wins mode decoder of byte 10 (R517). -/
def modeDecode (s4 : Byte) : BitVec 4 := lastMatch s4 0 romMode

/-- NANO_OVERRIDE: prefix n exactly when the resolved mode is F and bit 1 of byte 8 is set (R527). -/
def nanoOverride (pfx : BitVec 3) (mode : BitVec 4) (s2 : Byte) : BitVec 3 :=
  if mode = modeCodeFarad ∧ s2 &&& nanoMask ≠ 0 then pfxCodeNano else pfx

/-- The whitespace code points `trim` removes: Unicode's White_Space. PRESUMED, log 6; no ROM string holds one (R528). -/
def isWhitespace (c : Nat) : Bool :=
  (9 ≤ c && c ≤ 13) || c == 0x20 || c == 0x85 || c == 0xA0 || c == 0x1680 || (0x2000 ≤ c && c ≤ 0x200A) ||
  c == 0x2028 || c == 0x2029 || c == 0x202F || c == 0x205F || c == 0x3000

/-- `trim`: remove leading and trailing whitespace code points (R10). -/
def trim (t : Text) : Text := ((t.dropWhile isWhitespace).reverse.dropWhile isWhitespace).reverse

/-- The unit string of a prefix code and a mode code (R528). A code without a ROM entry is a fault (R123, R124, U11). -/
def unitText (pfx : BitVec 3) (mode : BitVec 4) : Except Fault Text :=
  match romPfxStr[pfx.toNat]?, romModeStr[mode.toNat]? with
  | none, _ => .error .pfxCode
  | some _, none => .error .modeCode
  | some p, some m => .ok (trim (p ++ m))

end Sys2Proof.Machine
end

