-- ==== Sys2Proof/Machine/Flags.lean ====
section
/-! DEFINITION. The status flags: writing one flag of RES.STATUS, and STATUS_DECODE (R500). The block has no condition codes (R127). -/

namespace Sys2Proof.Machine

/-- `status[i] <- b`: write flag i, leave the other nine (R501 to R510). -/
def writeFlag (status : BitVec 10) (i : Nat) (b : Bool) : BitVec 10 :=
  if b then status ||| (1#10 <<< i) else status &&& ~~~ (1#10 <<< i)

/-- Entry of ROM.STATUS tested on status bytes 1 and 2 (R500). -/
def flagSet (e : StatusEntry) (s1 s2 : Byte) : Bool := (if e.byte = 7 then s1 else s2) &&& e.mask ≠ 0

/-- STATUS_DECODE(s1, s2): each flag of ROM.STATUS tested independently, in table order (R500). -/
def statusDecode (s1 s2 : Byte) : BitVec 10 :=
  romStatus.zipIdx.foldl (fun status e => writeFlag status e.2 (flagSet e.1 s1 s2)) 0

/-- The tags of the set flags, in increasing bit order (R113, R611). -/
def statusTags (status : BitVec 10) : List StatusTag :=
  (romStatus.zipIdx.filter fun e => status.getLsbD e.2).map fun e => e.1.tag

end Sys2Proof.Machine
end

