-- ==== Sys2Proof/Config.lean ====
section
/-! DEFINITION. The implementation parameters of R7, and the values the spec leaves open, as constants without a body. -/

namespace Sys2Proof.Config

/-- `FRAME_BYTES` (R7). -/
def frameBytes : Nat := 14

/-- `LEN_W`: the width of `in_len` (R7). -/
def lenWidth : Nat := 8

/-- `DECODE_LATENCY`, in clock cycles (R7, R804). One step of the model is one cycle. -/
def decodeLatency : Nat := 1

/-- `CHAR_MAX`: the highest byte value that counts as a character (R7). -/
def charMax : Byte := 0x7F

/-- `N_FLAGS` (R7). -/
def nFlags : Nat := 10

/-- `N_PREFIX`, none included (R7). -/
def nPfx : Nat := 6

/-- `N_MODE`, none included (R7). -/
def nMode : Nat := 9

/-- `BASE_ADDRESS`: the address of the block on a host bus, OPEN (R7, R207, U14). -/
opaque baseAddress : Nat

/-- What `RES` holds from power-up until the first RESET or DECODE: any value (R800, U8). Log 4. -/
opaque powerUpRes : BitVec 64

/-- What `RES` holds after the n-th edge that violates setup or hold: any value (R805, U9). Log 4, log 12. -/
opaque unstableRes : Nat → BitVec 64

/-- The code point of `chr(b)` for a byte above `CHAR_MAX`, where the spec defines no character (R10). Log 11. -/
opaque highChar : Byte → Nat

end Sys2Proof.Config
end

