-- ==== Sys2Proof/Syntax.lean ====
section
/-! DEFINITION. The instructions: one constructor per row of spec/opcode_table.json (R300).

The first three are the commands of the control word (R301). The others are the rows of the frame decode table; the arguments of a row
are the operand bytes its rule names under "Operands", in the order of their offsets. -/

namespace Sys2Proof

inductive Instr where
  /-- RESET, CTRL = 1x; `start` is ignored (R800). -/
  | reset (start : Bool)
  /-- DECODE, CTRL = 01, with the sampled `in_len` and `in_frame` (R400). -/
  | decode (len : Byte) (frame : Frame)
  /-- IDLE, CTRL = 00 (R401). -/
  | idle
  /-- REJ_LEN, the length check (R402). -/
  | rejLen (len : Byte)
  /-- REJ_ENC_SIGN, the sign-byte check (R404). -/
  | rejEncSign (f0 : Byte)
  /-- REJ_ENC_DP, the decimal-point byte check (R405). -/
  | rejEncDp (f6 : Byte)
  /-- REJ_ENC_DIGIT, the digit-field check (R406). -/
  | rejEncDigit (f1 f2 f3 f4 : Byte)
  /-- VAL_OL, the overflow marker (R600). -/
  | valOl (f1 f2 f3 f4 : Byte)
  /-- SIGN_EMPTY, the sign of an overflow result (R602). -/
  | signEmpty (f1 f2 f3 f4 : Byte)
  /-- SIGN_VERBATIM, the sign of a numeric result (R601). -/
  | signVerbatim (f0 f1 f2 f3 f4 : Byte)
  /-- VAL_NUM, the digit mantissa (R603). -/
  | valNum (f1 f2 f3 f4 : Byte)
  /-- DP_NONE, decpos 0 (R604). -/
  | dpNone (f6 : Byte)
  /-- DP_1, decpos 1 (R605). -/
  | dp1 (f6 : Byte)
  /-- DP_2, decpos 2 (R606). -/
  | dp2 (f6 : Byte)
  /-- DP_3PLUS, decpos 3 to 9 (R607). -/
  | dp3Plus (f6 : Byte)
  /-- FLAG_BPN, status flag 0 (R501). -/
  | flagBpn (s1 : Byte)
  /-- FLAG_HOLD, status flag 1 (R502). -/
  | flagHold (s1 : Byte)
  /-- FLAG_REL, status flag 2 (R503). -/
  | flagRel (s1 : Byte)
  /-- FLAG_AC, status flag 3 (R504). -/
  | flagAc (s1 : Byte)
  /-- FLAG_DC, status flag 4 (R505). -/
  | flagDc (s1 : Byte)
  /-- FLAG_AUTO, status flag 5 (R506). -/
  | flagAuto (s1 : Byte)
  /-- FLAG_BATT, status flag 6 (R507). -/
  | flagBatt (s2 : Byte)
  /-- FLAG_APO, status flag 7 (R508). -/
  | flagApo (s2 : Byte)
  /-- FLAG_MIN, status flag 8 (R509). -/
  | flagMin (s2 : Byte)
  /-- FLAG_MAX, status flag 9 (R510). -/
  | flagMax (s2 : Byte)
  /-- PFX_NONE (R512). -/
  | pfxNone (s3 : Byte)
  /-- PFX_M (R513). -/
  | pfxM (s3 : Byte)
  /-- PFX_k (R514). -/
  | pfxKilo (s3 : Byte)
  /-- PFX_m (R515). -/
  | pfxMilli (s3 : Byte)
  /-- PFX_u (R516). -/
  | pfxMicro (s3 : Byte)
  /-- PFX_n, the nano override (R527). -/
  | pfxNano (s2 s4 : Byte)
  /-- MODE_NONE (R518). -/
  | modeNone (s4 : Byte)
  /-- MODE_DEGF (R519). -/
  | modeDegF (s4 : Byte)
  /-- MODE_DEGC (R520). -/
  | modeDegC (s4 : Byte)
  /-- MODE_F (R521). -/
  | modeFarad (s4 : Byte)
  /-- MODE_HZ (R522). -/
  | modeHz (s4 : Byte)
  /-- MODE_HFE (R523). -/
  | modeHfe (s4 : Byte)
  /-- MODE_OHM (R524). -/
  | modeOhm (s4 : Byte)
  /-- MODE_A (R525). -/
  | modeA (s4 : Byte)
  /-- MODE_V (R526). -/
  | modeV (s4 : Byte)
  /-- UNIT, the assembly of the unit string (R528). -/
  | unit
  /-- BAR_RAW, the bar-graph byte (R610). -/
  | barRaw (f11 : Byte)
  deriving DecidableEq, Repr

end Sys2Proof
end

