-- ==== Sys2Proof/WellFormed.lean ====
section
/-! DEFINITION. A well-formed instruction is one whose operands meet its opcode-table row's test (30_encoding.md: a row matches when
its masked bits equal its match bits and its condition, where it gives one, holds). -/

namespace Sys2Proof

/-- The character codes `'0'` to `'9'` (R304, R306). -/
abbrev inDigitRange (b : Byte) : Prop := 0x30 ≤ b ∧ b ≤ 0x39

/-- The overflow pattern `?0:?` (R304). -/
abbrev isOverflowBytes (f1 f2 f3 f4 : Byte) : Prop := f1 = 0x3F ∧ f2 = 0x30 ∧ f3 = 0x3A ∧ f4 = 0x3F

/-- The row's own test on the row's operands. The commands, UNIT and BAR_RAW have no test on their operands. -/
abbrev Instr.WellFormed : Instr → Prop
  | .reset _ => True
  | .decode _ _ => True
  | .idle => True
  | .rejLen len => len ≠ 14
  | .rejEncSign f0 => f0 &&& 0x80 = 0x80
  | .rejEncDp f6 => f6 < 0x30 ∨ f6 > 0x39
  | .rejEncDigit f1 f2 f3 f4 => ¬ isOverflowBytes f1 f2 f3 f4 ∧
      ¬ (inDigitRange f1 ∧ inDigitRange f2 ∧ inDigitRange f3 ∧ inDigitRange f4)
  | .valOl f1 f2 f3 f4 => isOverflowBytes f1 f2 f3 f4
  | .signEmpty f1 f2 f3 f4 => isOverflowBytes f1 f2 f3 f4
  | .signVerbatim f0 f1 f2 f3 f4 => f0 &&& 0x80 = 0 ∧ ¬ isOverflowBytes f1 f2 f3 f4
  | .valNum f1 f2 f3 f4 => inDigitRange f1 ∧ inDigitRange f2 ∧ inDigitRange f3 ∧ inDigitRange f4
  | .dpNone f6 => f6 = 0x30
  | .dp1 f6 => f6 = 0x31
  | .dp2 f6 => f6 = 0x32
  | .dp3Plus f6 => 0x33 ≤ f6 ∧ f6 ≤ 0x39
  | .flagBpn s1 => s1 &&& 0x01 = 0x01
  | .flagHold s1 => s1 &&& 0x02 = 0x02
  | .flagRel s1 => s1 &&& 0x04 = 0x04
  | .flagAc s1 => s1 &&& 0x08 = 0x08
  | .flagDc s1 => s1 &&& 0x10 = 0x10
  | .flagAuto s1 => s1 &&& 0x20 = 0x20
  | .flagBatt s2 => s2 &&& 0x04 = 0x04
  | .flagApo s2 => s2 &&& 0x08 = 0x08
  | .flagMin s2 => s2 &&& 0x10 = 0x10
  | .flagMax s2 => s2 &&& 0x20 = 0x20
  | .pfxNone s3 => s3 &&& 0xF0 = 0x00
  | .pfxM s3 => s3 &&& 0xF0 = 0x10
  | .pfxKilo s3 => s3 &&& 0xE0 = 0x20
  | .pfxMilli s3 => s3 &&& 0xC0 = 0x40
  | .pfxMicro s3 => s3 &&& 0x80 = 0x80
  | .pfxNano s2 s4 => s2 &&& 0x02 = 0x02 ∧ s4 &&& 0xFC = 0x04
  | .modeNone s4 => s4 &&& 0xFF = 0x00
  | .modeDegF s4 => s4 &&& 0xFF = 0x01
  | .modeDegC s4 => s4 &&& 0xFE = 0x02
  | .modeFarad s4 => s4 &&& 0xFC = 0x04
  | .modeHz s4 => s4 &&& 0xF8 = 0x08
  | .modeHfe s4 => s4 &&& 0xF0 = 0x10
  | .modeOhm s4 => s4 &&& 0xE0 = 0x20
  | .modeA s4 => s4 &&& 0xC0 = 0x40
  | .modeV s4 => s4 &&& 0x80 = 0x80
  | .unit => True
  | .barRaw _ => True

end Sys2Proof
end

