-- ==== Sys2Proof/Decode.lean ====
section
/-! DEFINITION. Decoding at the two levels of R300, the encoder, and the host's two table functions.

Level 1: the control word CTRL = {rst, start} selects RESET, DECODE or IDLE; every control word has a meaning (R301).
Level 2: the frame decode map (R315) classifies a frame and selects the rows of the frame decode table that match it. -/

namespace Sys2Proof

/-- Frame byte `k`, `F[k] = MemRead(k, 1)`: bits `8k+7:8k` of `in_frame` (R9, R200, R201). An address outside 0..13 cannot be written. -/
def frameByte (f : Frame) (k : Fin 14) : Byte := f.extractLsb' (8 * k.val) 8

/-- The frame whose byte `k` is element `k` of the list, byte 0 in the least significant lane (R201, R318). -/
def packFrame : List Byte → Frame
  | [] => 0
  | b :: bs => b.setWidth 112 ||| (packFrame bs <<< 8)

/-- `is_char` (R403). -/
def isChar (b : Byte) : Bool := b ≤ Config.charMax

/-- `is_digit` (R403). -/
def isDigit (b : Byte) : Bool := 0x30 ≤ b && b ≤ 0x39

/-- `ol`: bytes 1..4 are the overflow pattern `?0:?` (R600). -/
def isOverflow (f1 f2 f3 f4 : Byte) : Bool := f1 == 0x3F && f2 == 0x30 && f3 == 0x3A && f4 == 0x3F

/-- All four digit bytes are digit characters (R406). -/
def areDigits (f1 f2 f3 f4 : Byte) : Bool := isDigit f1 && isDigit f2 && isDigit f3 && isDigit f4

/-! ### Level 1: the control word -/

/-- `CTRL = {rst, start}`: bit 1 is `rst`, bit 0 is `start` (R301). -/
def ctrlWord (e : Edge) : BitVec 2 := BitVec.ofBool e.rst ++ BitVec.ofBool e.start

/-- The command a control word selects, by the table's rows of format CTRL (R301). -/
def decodeCommand (ctrl : BitVec 2) (len : Byte) (f : Frame) : Instr :=
  if ctrl &&& 0b10 = 0b10 then .reset (ctrl.getLsbD 0)
  else if ctrl &&& 0b11 = 0b01 then .decode len f
  else .idle

/-- The command the port levels of one edge select; DECODE samples `in_len` and `in_frame` together (R206, R301). -/
def decodeEdge (e : Edge) : Instr := decodeCommand (ctrlWord e) e.inLen e.inFrame

/-! ### Level 2: the frame decode map -/

/-- The step of the frame decode map at which a frame's kind is decided (R315). -/
inductive FrameClass where
  | rejLen | rejSign | rejDp | rejDigit | overflow | numeric
  deriving DecidableEq, Repr

/-- The frame decode map: the first matching step decides (R315). -/
def classify (len : Byte) (f : Frame) : FrameClass :=
  if len ≠ 14 then .rejLen
  else if ! isChar (frameByte f 0) then .rejSign
  else if ! isDigit (frameByte f 6) then .rejDp
  else if isOverflow (frameByte f 1) (frameByte f 2) (frameByte f 3) (frameByte f 4) then .overflow
  else if areDigits (frameByte f 1) (frameByte f 2) (frameByte f 3) (frameByte f 4) then .numeric
  else .rejDigit

/-- The frame passes every check of R402, R404, R405 and R406. -/
def accepted (len : Byte) (f : Frame) : Bool :=
  match classify len f with
  | .overflow => true
  | .numeric => true
  | _ => false

/-- The matching decimal-point row of a digit byte 6 (R604 to R607). -/
def dpRow (f6 : Byte) : Instr :=
  if f6 = 0x30 then .dpNone f6
  else if f6 = 0x31 then .dp1 f6
  else if f6 = 0x32 then .dp2 f6
  else .dp3Plus f6

/-- The matching flag rows of status bytes 1 and 2, in table order (R501 to R510). -/
def flagRows (s1 s2 : Byte) : List Instr :=
  (if s1.getLsbD 0 then [.flagBpn s1] else []) ++ (if s1.getLsbD 1 then [.flagHold s1] else []) ++
  (if s1.getLsbD 2 then [.flagRel s1] else []) ++ (if s1.getLsbD 3 then [.flagAc s1] else []) ++
  (if s1.getLsbD 4 then [.flagDc s1] else []) ++ (if s1.getLsbD 5 then [.flagAuto s1] else []) ++
  (if s2.getLsbD 2 then [.flagBatt s2] else []) ++ (if s2.getLsbD 3 then [.flagApo s2] else []) ++
  (if s2.getLsbD 4 then [.flagMin s2] else []) ++ (if s2.getLsbD 5 then [.flagMax s2] else [])

/-- The matching row among PFX_NONE to PFX_u: the highest set bit among bits 7..4 (R511 to R516). -/
def pfxRow (s3 : Byte) : Instr :=
  if s3.getLsbD 7 then .pfxMicro s3
  else if s3.getLsbD 6 then .pfxMilli s3
  else if s3.getLsbD 5 then .pfxKilo s3
  else if s3.getLsbD 4 then .pfxM s3
  else .pfxNone s3

/-- The matching mode row: the highest set bit (R517 to R526). -/
def modeRow (s4 : Byte) : Instr :=
  if s4.getLsbD 7 then .modeV s4
  else if s4.getLsbD 6 then .modeA s4
  else if s4.getLsbD 5 then .modeOhm s4
  else if s4.getLsbD 4 then .modeHfe s4
  else if s4.getLsbD 3 then .modeHz s4
  else if s4.getLsbD 2 then .modeFarad s4
  else if s4.getLsbD 1 then .modeDegC s4
  else if s4.getLsbD 0 then .modeDegF s4
  else .modeNone s4

/-- PFX_n, where it matches (R527). -/
def nanoRow (s2 s4 : Byte) : List Instr :=
  if s4 &&& 0xFC = 0x04 ∧ s2 &&& 0x02 = 0x02 then [.pfxNano s2 s4] else []

/-- The matching rows of every accepted frame, overflow or numeric (R315, R529, R610). PFX_n stands after the row it overrides. -/
def acceptRows (f : Frame) : List Instr :=
  flagRows (frameByte f 7) (frameByte f 8) ++ [pfxRow (frameByte f 9), modeRow (frameByte f 10)] ++
  nanoRow (frameByte f 8) (frameByte f 10) ++ [.unit, .barRaw (frameByte f 11)]

/-- The rows of the frame decode table that a presented frame selects, in the order of the decode map: first the row that decides its
kind (R315). -/
def decodeRows (len : Byte) (f : Frame) : List Instr :=
  let f0 := frameByte f 0
  let f1 := frameByte f 1
  let f2 := frameByte f 2
  let f3 := frameByte f 3
  let f4 := frameByte f 4
  let f6 := frameByte f 6
  match classify len f with
  | .rejLen => [.rejLen len]
  | .rejSign => [.rejEncSign f0]
  | .rejDp => [.rejEncDp f6]
  | .rejDigit => [.rejEncDigit f1 f2 f3 f4]
  | .overflow => [.valOl f1 f2 f3 f4, .signEmpty f1 f2 f3 f4] ++ acceptRows f
  | .numeric => [.valNum f1 f2 f3 f4, .signVerbatim f0 f1 f2 f3 f4, dpRow f6] ++ acceptRows f

/-! ### The encoder -/

/-- What the host presents for an instruction: a command's control word with the sampled ports, or the length and the frame bytes that a
row of the decode table fixes (opcode_table.json; R318). -/
inductive Code where
  | command (ctrl : BitVec 2) (len : Byte) (frame : Frame)
  | row (len : Byte) (bytes : List (Fin 14 × Byte))
  deriving DecidableEq, Repr

/-- The encoding of an instruction: the port levels of a command (0 on the ports it does not sample), or the bytes of a row. Every row but
REJ_LEN is reached only with a length of 14 (R315). -/
def encode : Instr → Code
  | .reset start => .command (BitVec.ofBool true ++ BitVec.ofBool start) 0 0
  | .decode len f => .command 0b01 len f
  | .idle => .command 0b00 0 0
  | .rejLen len => .row len []
  | .rejEncSign f0 => .row 14 [(0, f0)]
  | .rejEncDp f6 => .row 14 [(6, f6)]
  | .rejEncDigit f1 f2 f3 f4 => .row 14 [(1, f1), (2, f2), (3, f3), (4, f4)]
  | .valOl f1 f2 f3 f4 => .row 14 [(1, f1), (2, f2), (3, f3), (4, f4)]
  | .signEmpty f1 f2 f3 f4 => .row 14 [(1, f1), (2, f2), (3, f3), (4, f4)]
  | .signVerbatim f0 f1 f2 f3 f4 => .row 14 [(0, f0), (1, f1), (2, f2), (3, f3), (4, f4)]
  | .valNum f1 f2 f3 f4 => .row 14 [(1, f1), (2, f2), (3, f3), (4, f4)]
  | .dpNone f6 => .row 14 [(6, f6)]
  | .dp1 f6 => .row 14 [(6, f6)]
  | .dp2 f6 => .row 14 [(6, f6)]
  | .dp3Plus f6 => .row 14 [(6, f6)]
  | .flagBpn s1 => .row 14 [(7, s1)]
  | .flagHold s1 => .row 14 [(7, s1)]
  | .flagRel s1 => .row 14 [(7, s1)]
  | .flagAc s1 => .row 14 [(7, s1)]
  | .flagDc s1 => .row 14 [(7, s1)]
  | .flagAuto s1 => .row 14 [(7, s1)]
  | .flagBatt s2 => .row 14 [(8, s2)]
  | .flagApo s2 => .row 14 [(8, s2)]
  | .flagMin s2 => .row 14 [(8, s2)]
  | .flagMax s2 => .row 14 [(8, s2)]
  | .pfxNone s3 => .row 14 [(9, s3)]
  | .pfxM s3 => .row 14 [(9, s3)]
  | .pfxKilo s3 => .row 14 [(9, s3)]
  | .pfxMilli s3 => .row 14 [(9, s3)]
  | .pfxMicro s3 => .row 14 [(9, s3)]
  | .pfxNano s2 s4 => .row 14 [(8, s2), (10, s4)]
  | .modeNone s4 => .row 14 [(10, s4)]
  | .modeDegF s4 => .row 14 [(10, s4)]
  | .modeDegC s4 => .row 14 [(10, s4)]
  | .modeFarad s4 => .row 14 [(10, s4)]
  | .modeHz s4 => .row 14 [(10, s4)]
  | .modeHfe s4 => .row 14 [(10, s4)]
  | .modeOhm s4 => .row 14 [(10, s4)]
  | .modeA s4 => .row 14 [(10, s4)]
  | .modeV s4 => .row 14 [(10, s4)]
  | .unit => .row 14 []
  | .barRaw f11 => .row 14 [(11, f11)]

/-- The decoder reads instruction `i` from the code `c`: a command is the command its control word selects; a row is read from a frame by
the decode map, so a row's code is read as `i` in a presentation when the presentation carries the code's length and bytes. -/
def Code.carriedBy (c : Code) (len : Byte) (f : Frame) : Prop :=
  match c with
  | .command _ _ _ => False
  | .row l bytes => l = len ∧ ∀ p ∈ bytes, frameByte f p.1 = p.2

/-- The classes of frame for which the decode map reaches a row (opcode_table.json "step"; R315). The commands are no rows. -/
def reachedIn : Instr → List FrameClass
  | .reset _ => []
  | .decode _ _ => []
  | .idle => []
  | .rejLen _ => [.rejLen]
  | .rejEncSign _ => [.rejSign]
  | .rejEncDp _ => [.rejDp]
  | .rejEncDigit _ _ _ _ => [.rejDigit]
  | .valOl _ _ _ _ => [.overflow]
  | .signEmpty _ _ _ _ => [.overflow]
  | .signVerbatim _ _ _ _ _ => [.numeric]
  | .valNum _ _ _ _ => [.numeric]
  | .dpNone _ => [.numeric]
  | .dp1 _ => [.numeric]
  | .dp2 _ => [.numeric]
  | .dp3Plus _ => [.numeric]
  | .flagBpn _ => [.overflow, .numeric]
  | .flagHold _ => [.overflow, .numeric]
  | .flagRel _ => [.overflow, .numeric]
  | .flagAc _ => [.overflow, .numeric]
  | .flagDc _ => [.overflow, .numeric]
  | .flagAuto _ => [.overflow, .numeric]
  | .flagBatt _ => [.overflow, .numeric]
  | .flagApo _ => [.overflow, .numeric]
  | .flagMin _ => [.overflow, .numeric]
  | .flagMax _ => [.overflow, .numeric]
  | .pfxNone _ => [.overflow, .numeric]
  | .pfxM _ => [.overflow, .numeric]
  | .pfxKilo _ => [.overflow, .numeric]
  | .pfxMilli _ => [.overflow, .numeric]
  | .pfxMicro _ => [.overflow, .numeric]
  | .pfxNano _ _ => [.overflow, .numeric]
  | .modeNone _ => [.overflow, .numeric]
  | .modeDegF _ => [.overflow, .numeric]
  | .modeDegC _ => [.overflow, .numeric]
  | .modeFarad _ => [.overflow, .numeric]
  | .modeHz _ => [.overflow, .numeric]
  | .modeHfe _ => [.overflow, .numeric]
  | .modeOhm _ => [.overflow, .numeric]
  | .modeA _ => [.overflow, .numeric]
  | .modeV _ => [.overflow, .numeric]
  | .unit => [.overflow, .numeric]
  | .barRaw _ => [.overflow, .numeric]

/-- The byte tests of the row in opcode_table.json ("bytes"): frame byte, mask, match. A row whose test is a condition lists none. -/
def tableBytes : Instr → List (Fin 14 × Byte × Byte)
  | .reset _ => []
  | .decode _ _ => []
  | .idle => []
  | .rejLen _ => []
  | .rejEncSign _ => [(0, 0x80, 0x80)]
  | .rejEncDp _ => []
  | .rejEncDigit _ _ _ _ => []
  | .valOl _ _ _ _ => [(1, 0xFF, 0x3F), (2, 0xFF, 0x30), (3, 0xFF, 0x3A), (4, 0xFF, 0x3F)]
  | .signEmpty _ _ _ _ => [(1, 0xFF, 0x3F), (2, 0xFF, 0x30), (3, 0xFF, 0x3A), (4, 0xFF, 0x3F)]
  | .signVerbatim _ _ _ _ _ => [(0, 0x80, 0x00)]
  | .valNum _ _ _ _ => []
  | .dpNone _ => [(6, 0xFF, 0x30)]
  | .dp1 _ => [(6, 0xFF, 0x31)]
  | .dp2 _ => [(6, 0xFF, 0x32)]
  | .dp3Plus _ => []
  | .flagBpn _ => [(7, 0x01, 0x01)]
  | .flagHold _ => [(7, 0x02, 0x02)]
  | .flagRel _ => [(7, 0x04, 0x04)]
  | .flagAc _ => [(7, 0x08, 0x08)]
  | .flagDc _ => [(7, 0x10, 0x10)]
  | .flagAuto _ => [(7, 0x20, 0x20)]
  | .flagBatt _ => [(8, 0x04, 0x04)]
  | .flagApo _ => [(8, 0x08, 0x08)]
  | .flagMin _ => [(8, 0x10, 0x10)]
  | .flagMax _ => [(8, 0x20, 0x20)]
  | .pfxNone _ => [(9, 0xF0, 0x00)]
  | .pfxM _ => [(9, 0xF0, 0x10)]
  | .pfxKilo _ => [(9, 0xE0, 0x20)]
  | .pfxMilli _ => [(9, 0xC0, 0x40)]
  | .pfxMicro _ => [(9, 0x80, 0x80)]
  | .pfxNano _ _ => [(8, 0x02, 0x02), (10, 0xFC, 0x04)]
  | .modeNone _ => [(10, 0xFF, 0x00)]
  | .modeDegF _ => [(10, 0xFF, 0x01)]
  | .modeDegC _ => [(10, 0xFE, 0x02)]
  | .modeFarad _ => [(10, 0xFC, 0x04)]
  | .modeHz _ => [(10, 0xF8, 0x08)]
  | .modeHfe _ => [(10, 0xF0, 0x10)]
  | .modeOhm _ => [(10, 0xE0, 0x20)]
  | .modeA _ => [(10, 0xC0, 0x40)]
  | .modeV _ => [(10, 0x80, 0x80)]
  | .unit => []
  | .barRaw _ => []

/-! ### The host's table words -/

/-- Whether a table word is a control word: at most one byte, with no bit above CTRL's two. The table numbers the bits of a command and of
a frame row both from 0, so a word of eight bits or fewer could be either; log 7 says how the two are told apart. -/
def isCtrlWord (nbits w : Nat) : Bool := nbits ≤ 8 && w < 4

/-- The port levels that present a table word: a control word on `rst` and `start` with zeros on the other ports, or a frame word as a
DECODE of 14 bytes. -/
def edgeOfTableWord (nbits w : Nat) : Edge :=
  if isCtrlWord nbits w then
    { rst := w / 2 = 1, start := w % 2 = 1, inLen := 0, inFrame := 0, stable := true }
  else
    { rst := false, start := true, inLen := 14, inFrame := BitVec.ofNat 112 w, stable := true }

/-- What the decoder reads from a table word: the command of a control word, or the row that decides the kind of a frame word presented
with length 14, the first that the decode map selects (R315). A word of more than 112 bits is refused. -/
def decodeTableWord (nbits w : Nat) : Option Instr :=
  let e := edgeOfTableWord nbits w
  if isCtrlWord nbits w then some (decodeEdge e)
  else if w < 2 ^ 112 then (decodeRows e.inLen e.inFrame).head?
  else none

end Sys2Proof
end

