-- ==== Sys2Proof/Machine/Operands.lean ====
section
/-! DEFINITION. The operands assembled from frame bytes (R313): digit values, the mantissa, decpos and the scale; and the punctuated digit
string the value stands for (R612). -/

namespace Sys2Proof.Machine

/-- The value of a digit character: the byte minus 0x30, 0..9 (R313). -/
def digitValue (b : Byte) : Nat := b.toNat - 0x30

/-- The four digits as one unsigned number, byte 1 the most significant (R203, R603). -/
def mantissa (f1 f2 f3 f4 : Byte) : Nat :=
  1000 * digitValue f1 + 100 * digitValue f2 + 10 * digitValue f3 + digitValue f4

/-- `decpos = F[6] - 0x30` (R306, R313). -/
def decpos (f6 : Byte) : Nat := digitValue f6

/-- `scale = (decpos == 0) ? 0 : 4 - min(decpos, 3)` (R612). -/
def scaleOf (p : Nat) : Nat := if p = 0 then 0 else 4 - min p 3

/-! ### The decimal-point procedure on strings (R612) -/

/-- The code point of '.'. -/
def pointChar : Nat := 0x2E

/-- The four digit characters, byte 1 leftmost (R203). -/
def digitText (f1 f2 f3 f4 : Byte) : Text := [f1.toNat, f2.toNat, f3.toNat, f4.toNat]

/-- DP_INSERT: the point after the first `min(decpos, 3)` characters; no point for decpos 0 (R604, R612). -/
def insertPoint (digits : Text) (p : Nat) : Text :=
  if p = 0 then digits else digits.take (min p 3) ++ [pointChar] ++ digits.drop (min p 3)

/-- An exact decimal: `mant / 10^scale` (R608). -/
structure Decimal where
  mant : Nat
  scale : Nat
  deriving DecidableEq, Repr

/-- The rational a decimal stands for (R608). -/
def Decimal.toRat (d : Decimal) : ℚ := (d.mant : ℚ) / (10 : ℚ) ^ d.scale

/-- Read a base-10 digit string with at most one point: the digits so far as a number, and the digits counted after the point once it
has been read. Any other character is a parse failure. -/
def parseFrom (acc : Nat) (fraction : Option Nat) : Text → Option Decimal
  | [] => some { mant := acc, scale := fraction.getD 0 }
  | c :: cs =>
    if 0x30 ≤ c ∧ c ≤ 0x39 then parseFrom (10 * acc + (c - 0x30)) (fraction.map (· + 1)) cs
    else if c = pointChar ∧ fraction = none then parseFrom acc (some 0) cs
    else none

/-- The number a punctuated digit string denotes in base 10 (R608, R612). -/
def parseDecimal (t : Text) : Option Decimal := parseFrom 0 none t

end Sys2Proof.Machine
end

