-- ==== Sys2Proof/Machine/Ops.lean ====
section
/-! DEFINITION. The named operations on the state: the packed result word, rejecting and accepting a frame, the host's next presentation,
an edge that violates setup or hold, power-up, and the bus reading. -/

namespace Sys2Proof.Machine

/-! ### The packed result word -/

/-- A field at bit position `low` of a 64-bit word. -/
def placeField (low : Nat) (v : BitVec n) : BitVec 64 := v.setWidth 64 <<< low

/-- `res_word[63:0]`: each field at its bits; no field reaches bits 63:54, which read as zero (R103). -/
def Res.word (r : Res) : BitVec 64 :=
  placeField 0 (BitVec.ofBool r.valid) ||| placeField 1 r.kind ||| placeField 3 (BitVec.ofBool r.signEmpty) |||
  placeField 4 r.signChar ||| placeField 12 (BitVec.ofBool r.valOl) ||| placeField 13 r.valMant |||
  placeField 27 r.valScale ||| placeField 29 r.pfx ||| placeField 32 r.mode ||| placeField 36 r.status |||
  placeField 46 r.barRaw

/-- The fields at their bit positions in a 64-bit word (R103); bits 63:54 are dropped, for the register has no storage there. -/
def Res.ofWord (w : BitVec 64) : Res :=
  { valid := w.getLsbD 0
    kind := w.extractLsb' 1 2
    signEmpty := w.getLsbD 3
    signChar := w.extractLsb' 4 8
    valOl := w.getLsbD 12
    valMant := w.extractLsb' 13 14
    valScale := w.extractLsb' 27 2
    pfx := w.extractLsb' 29 3
    mode := w.extractLsb' 32 4
    status := w.extractLsb' 36 10
    barRaw := w.extractLsb' 46 8 }

/-- Replace the result register, and nothing else. -/
def State.withRes (s : State) (r : Res) : State := { s with res := r }

/-! ### Rejecting and accepting a frame -/

/-- KIND code of an accepted frame (R105). -/
def kindOk : BitVec 2 := 0

/-- KIND code of `Rejected(InvalidLength)` (R105). -/
def kindInvalidLength : BitVec 2 := 1

/-- KIND code of `Rejected(InvalidEncoding)` (R105). -/
def kindInvalidEncoding : BitVec 2 := 2

/-- What `raise Reject(kind)` writes: VALID 1, KIND the kind, every other field 0 (R701). -/
def rejectedRes (kind : BitVec 2) : Res := { Res.cleared with valid := true, kind := kind }

/-- `raise Reject(kind)`: the block's exception. It ends the transaction and writes every field of RES; nothing else changes, no state is
saved and there is no return (R701, R705). -/
def raiseReject (kind : BitVec 2) (s : State) : Result := .next (s.withRes (rejectedRes kind))

/-- ACCEPT: the write-back of an accepted frame, every field of RES at once (R407). -/
def accept (signEmpty : Bool) (signChar : Byte) (valOl : Bool) (mant : BitVec 14) (scale : BitVec 2) (pfx : BitVec 3)
    (mode : BitVec 4) (status : BitVec 10) (bar : Byte) (s : State) : Result :=
  .next (s.withRes
    { valid := true, kind := kindOk, signEmpty := signEmpty, signChar := signChar, valOl := valOl, valMant := mant,
      valScale := scale, pfx := pfx, mode := mode, status := status, barRaw := bar })

/-! ### Single fields, as the rows write them -/

/-- Write the sign pair (R601, R602). -/
def Res.writeSign (r : Res) (empty : Bool) (char : Byte) : Res := { r with signEmpty := empty, signChar := char }

/-- Write the overflow marker and the value pair (R600). -/
def Res.writeOverflow (r : Res) : Res := { r with valOl := true, valMant := 0, valScale := 0 }

/-- Write a numeric mantissa (R603). -/
def Res.writeMant (r : Res) (mant : BitVec 14) : Res := { r with valOl := false, valMant := mant }

/-- Write the scale (R604 to R607). -/
def Res.writeScale (r : Res) (scale : BitVec 2) : Res := { r with valScale := scale }

/-- Write the unit-prefix code (R512 to R516, R527). -/
def Res.writePfx (r : Res) (code : BitVec 3) : Res := { r with pfx := code }

/-- Write the mode code (R518 to R526). -/
def Res.writeMode (r : Res) (code : BitVec 4) : Res := { r with mode := code }

/-- Write the status flags (R501 to R510). -/
def Res.writeStatus (r : Res) (status : BitVec 10) : Res := { r with status := status }

/-- Write the bar-graph byte (R610). -/
def Res.writeBar (r : Res) (bar : Byte) : Res := { r with barRaw := bar }

/-- Write RES through `g` when the row's condition holds; change nothing when it does not. -/
def writeIf (c : Bool) (g : Res → Res) (s : State) : Result := .next (if c then s.withRes (g s.res) else s)

/-! ### Edges -/

/-- After an edge the host presents the next levels of its script; when the script is over, the levels stay (log 1). -/
def State.advance (s : State) : State :=
  match s.script with
  | [] => s
  | e :: es => { s with ports := e, script := es }

/-- An edge that violates setup or hold leaves RES with any value (R805, U9): the free value of index `freeIndex`, which moves on (log 4).
That this covers an edge whose levels select RESET or IDLE is the model's DESIGN CHOICE, log 12. -/
def State.unstableEdge (s : State) : State :=
  { s with res := Res.ofWord (Config.unstableRes s.freeIndex), freeIndex := s.freeIndex + 1 }

/-- The block at power-up, before any RESET: RES holds any value (R800, U8); the inputs are at rest. Log 4. -/
def State.powerUp : State := { State.reset with res := Res.ofWord Config.powerUpRes }

/-! ### The bus -/

/-- What a host that places the result register at `base` reads. That `res_word` stands there with the layout of R103 is R207's. The address
unit, the access width and the other addresses are not in the spec: that one access gives all 64 bits, that every other address gives
nothing, and that no input port is on the bus, is the model's DESIGN CHOICE, log 10. -/
def busRead (base address : Nat) (s : State) : Option (BitVec 64) := if address = base then some s.res.word else none

/-- The same at the platform's own base address, which the spec leaves OPEN (R7, D14). Log 10. -/
def platformRead (address : Nat) (s : State) : Option (BitVec 64) := busRead Config.baseAddress address s

end Sys2Proof.Machine
end

