-- ==== Sys2Proof/Machine/Control.lean ====
section
/-! DEFINITION. The commands of the control word: RESET (R800), DECODE (R400) and IDLE (R401). -/

namespace Sys2Proof.Machine

/-- RESET: every field of RES takes its reset value, whatever `start` is; the frame presented is lost (R800, R801). -/
def execReset (_start : Bool) (s : State) : Result := .next (s.withRes Res.cleared)

/-- SIGN(ol, F[0]): the sign pair (R601, R602). -/
def signOf (ol : Bool) (f0 : Byte) : Bool × Byte := if ol then (true, 0) else (false, f0)

/-- VALUE(ol, F[1..4], F[6] - 0x30): the overflow marker, the mantissa and the scale (R600, R603, R612). -/
def valueOf (ol : Bool) (f1 f2 f3 f4 f6 : Byte) : Bool × BitVec 14 × BitVec 2 :=
  if ol then (true, 0, 0)
  else (false, BitVec.ofNat 14 (mantissa f1 f2 f3 f4), BitVec.ofNat 2 (scaleOf (decpos f6)))

/-- DECODE: the decode of the sampled frame as one atomic step, in the order of R400's pseudocode. -/
def execDecode (len : Byte) (f : Frame) (s : State) : Result :=
  let f0 := frameByte f 0
  let f1 := frameByte f 1
  let f2 := frameByte f 2
  let f3 := frameByte f 3
  let f4 := frameByte f 4
  let f6 := frameByte f 6
  let ol := isOverflow f1 f2 f3 f4
  if len ≠ BitVec.ofNat 8 Config.frameBytes then raiseReject kindInvalidLength s
  else if ! isChar f0 then raiseReject kindInvalidEncoding s
  else if ! isDigit f6 then raiseReject kindInvalidEncoding s
  else if ! ol && ! areDigits f1 f2 f3 f4 then raiseReject kindInvalidEncoding s
  else
    let status := statusDecode (frameByte f 7) (frameByte f 8)
    let mode := modeDecode (frameByte f 10)
    let pfx := nanoOverride (pfxDecode (frameByte f 9)) mode (frameByte f 8)
    let sign := signOf ol f0
    let value := valueOf ol f1 f2 f3 f4 f6
    accept sign.1 sign.2 value.1 value.2.1 value.2.2 pfx mode status (frameByte f 11) s

/-- IDLE: `RES <- RES` (R401). -/
def execIdle (s : State) : Result := .next s

end Sys2Proof.Machine
end

