-- ==== Sys2Proof/Machine/Reject.lean ====
section
/-! DEFINITION. The four rejection rows of the frame decode table, each its rule's pseudocode on its operands. -/

namespace Sys2Proof.Machine

/-- REJ_LEN: `if LEN != 14: raise Reject(INVALID_LENGTH)` (R402). -/
def execRejLen (len : Byte) (s : State) : Result :=
  if len ≠ BitVec.ofNat 8 Config.frameBytes then raiseReject kindInvalidLength s else .next s

/-- REJ_ENC_SIGN: `if not is_char(F[0]): raise Reject(INVALID_ENCODING)` (R404). -/
def execRejEncSign (f0 : Byte) (s : State) : Result :=
  if ! isChar f0 then raiseReject kindInvalidEncoding s else .next s

/-- REJ_ENC_DP: `if not is_digit(F[6]): raise Reject(INVALID_ENCODING)` (R405). -/
def execRejEncDp (f6 : Byte) (s : State) : Result :=
  if ! isDigit f6 then raiseReject kindInvalidEncoding s else .next s

/-- REJ_ENC_DIGIT: reject bytes 1..4 that are neither the overflow pattern nor four digit characters (R406). -/
def execRejEncDigit (f1 f2 f3 f4 : Byte) (s : State) : Result :=
  if ! isOverflow f1 f2 f3 f4 && ! areDigits f1 f2 f3 f4 then raiseReject kindInvalidEncoding s else .next s

end Sys2Proof.Machine
end

