-- ==== Sys2Proof/Machine/StatusFlags.lean ====
section
/-! DEFINITION. The ten status-flag rows of the frame decode table (R501 to R510). -/

namespace Sys2Proof.Machine

/-- `status[i] <- b` on RES, and nothing else (R501 to R510). -/
def writeStatusFlag (i : Nat) (b : Bool) (s : State) : Result :=
  .next (s.withRes (s.res.writeStatus (writeFlag s.res.status i b)))

/-- FLAG_BPN: `status[0] <- F[7][0]` (R501). -/
def execFlagBpn (s1 : Byte) (s : State) : Result := writeStatusFlag 0 (s1.getLsbD 0) s

/-- FLAG_HOLD: `status[1] <- F[7][1]` (R502). -/
def execFlagHold (s1 : Byte) (s : State) : Result := writeStatusFlag 1 (s1.getLsbD 1) s

/-- FLAG_REL: `status[2] <- F[7][2]` (R503). -/
def execFlagRel (s1 : Byte) (s : State) : Result := writeStatusFlag 2 (s1.getLsbD 2) s

/-- FLAG_AC: `status[3] <- F[7][3]` (R504). -/
def execFlagAc (s1 : Byte) (s : State) : Result := writeStatusFlag 3 (s1.getLsbD 3) s

/-- FLAG_DC: `status[4] <- F[7][4]` (R505). -/
def execFlagDc (s1 : Byte) (s : State) : Result := writeStatusFlag 4 (s1.getLsbD 4) s

/-- FLAG_AUTO: `status[5] <- F[7][5]` (R506). -/
def execFlagAuto (s1 : Byte) (s : State) : Result := writeStatusFlag 5 (s1.getLsbD 5) s

/-- FLAG_BATT: `status[6] <- F[8][2]` (R507). -/
def execFlagBatt (s2 : Byte) (s : State) : Result := writeStatusFlag 6 (s2.getLsbD 2) s

/-- FLAG_APO: `status[7] <- F[8][3]` (R508). -/
def execFlagApo (s2 : Byte) (s : State) : Result := writeStatusFlag 7 (s2.getLsbD 3) s

/-- FLAG_MIN: `status[8] <- F[8][4]` (R509). -/
def execFlagMin (s2 : Byte) (s : State) : Result := writeStatusFlag 8 (s2.getLsbD 4) s

/-- FLAG_MAX: `status[9] <- F[8][5]` (R510). -/
def execFlagMax (s2 : Byte) (s : State) : Result := writeStatusFlag 9 (s2.getLsbD 5) s

end Sys2Proof.Machine
end

