-- ==== Sys2Proof/Machine/Units.lean ====
section
/-! DEFINITION. The unit rows of the frame decode table: the unit prefix, the nano override, the mode and the unit string (R512 to R528). -/

namespace Sys2Proof.Machine

/-- PFX_NONE: `if (F[9] & 0xF0) == 0x00: prefix <- 0` (R512). -/
def execPfxNone (s3 : Byte) (s : State) : Result := writeIf (s3 &&& 0xF0 == 0x00) (fun r => r.writePfx 0) s

/-- PFX_M: `if (F[9] & 0xF0) == 0x10: prefix <- 1` (R513). -/
def execPfxM (s3 : Byte) (s : State) : Result := writeIf (s3 &&& 0xF0 == 0x10) (fun r => r.writePfx 1) s

/-- PFX_k: `if (F[9] & 0xE0) == 0x20: prefix <- 2` (R514). -/
def execPfxKilo (s3 : Byte) (s : State) : Result := writeIf (s3 &&& 0xE0 == 0x20) (fun r => r.writePfx 2) s

/-- PFX_m: `if (F[9] & 0xC0) == 0x40: prefix <- 3` (R515). -/
def execPfxMilli (s3 : Byte) (s : State) : Result := writeIf (s3 &&& 0xC0 == 0x40) (fun r => r.writePfx 3) s

/-- PFX_u: `if (F[9] & 0x80) == 0x80: prefix <- 4` (R516). -/
def execPfxMicro (s3 : Byte) (s : State) : Result := writeIf (s3 &&& 0x80 == 0x80) (fun r => r.writePfx 4) s

/-- PFX_n, the nano override: prefix 5 when byte 10 resolves to mode F and bit 1 of byte 8 is set (R527). -/
def execPfxNano (s2 s4 : Byte) (s : State) : Result :=
  writeIf (s4 &&& 0xFC == 0x04 && s2 &&& 0x02 == 0x02) (fun r => r.writePfx 5) s

/-- MODE_NONE: `if (F[10] & 0xFF) == 0x00: mode <- 0` (R518). -/
def execModeNone (s4 : Byte) (s : State) : Result := writeIf (s4 &&& 0xFF == 0x00) (fun r => r.writeMode 0) s

/-- MODE_DEGF: `if (F[10] & 0xFF) == 0x01: mode <- 1` (R519). -/
def execModeDegF (s4 : Byte) (s : State) : Result := writeIf (s4 &&& 0xFF == 0x01) (fun r => r.writeMode 1) s

/-- MODE_DEGC: `if (F[10] & 0xFE) == 0x02: mode <- 2` (R520). -/
def execModeDegC (s4 : Byte) (s : State) : Result := writeIf (s4 &&& 0xFE == 0x02) (fun r => r.writeMode 2) s

/-- MODE_F: `if (F[10] & 0xFC) == 0x04: mode <- 3` (R521). -/
def execModeFarad (s4 : Byte) (s : State) : Result := writeIf (s4 &&& 0xFC == 0x04) (fun r => r.writeMode 3) s

/-- MODE_HZ: `if (F[10] & 0xF8) == 0x08: mode <- 4` (R522). -/
def execModeHz (s4 : Byte) (s : State) : Result := writeIf (s4 &&& 0xF8 == 0x08) (fun r => r.writeMode 4) s

/-- MODE_HFE: `if (F[10] & 0xF0) == 0x10: mode <- 5` (R523). -/
def execModeHfe (s4 : Byte) (s : State) : Result := writeIf (s4 &&& 0xF0 == 0x10) (fun r => r.writeMode 5) s

/-- MODE_OHM: `if (F[10] & 0xE0) == 0x20: mode <- 6` (R524). -/
def execModeOhm (s4 : Byte) (s : State) : Result := writeIf (s4 &&& 0xE0 == 0x20) (fun r => r.writeMode 6) s

/-- MODE_A: `if (F[10] & 0xC0) == 0x40: mode <- 7` (R525). -/
def execModeA (s4 : Byte) (s : State) : Result := writeIf (s4 &&& 0xC0 == 0x40) (fun r => r.writeMode 7) s

/-- MODE_V: `if (F[10] & 0x80) == 0x80: mode <- 8` (R526). -/
def execModeV (s4 : Byte) (s : State) : Result := writeIf (s4 &&& 0x80 == 0x80) (fun r => r.writeMode 8) s

/-- UNIT: the unit string of RES.PREFIX and RES.MODE is assembled (`unitText`); no field is written (R528). A code that no rule writes
has no string and is a fault (U11). -/
def execUnit (s : State) : Result :=
  match unitText s.res.pfx s.res.mode with
  | .ok _ => .next s
  | .error e => .fault e

end Sys2Proof.Machine
end

