-- ==== Sys2Proof/Machine/Value.lean ====
section
/-! DEFINITION. The value rows of the frame decode table: overflow, sign, mantissa, decimal point and bar byte (R600 to R607, R610). -/

namespace Sys2Proof.Machine

/-- VAL_OL: `if ol: (val_ol, mant, scale) <- (1, 0, 0)` (R600). -/
def execValOl (f1 f2 f3 f4 : Byte) (s : State) : Result := writeIf (isOverflow f1 f2 f3 f4) Res.writeOverflow s

/-- SIGN_EMPTY: `if ol: (sign_empty, sign_char) <- (1, 0x00)` (R602). -/
def execSignEmpty (f1 f2 f3 f4 : Byte) (s : State) : Result :=
  writeIf (isOverflow f1 f2 f3 f4) (fun r => r.writeSign true 0) s

/-- SIGN_VERBATIM: `if not ol: (sign_empty, sign_char) <- (0, F[0])` (R601). -/
def execSignVerbatim (f0 f1 f2 f3 f4 : Byte) (s : State) : Result :=
  writeIf (! isOverflow f1 f2 f3 f4) (fun r => r.writeSign false f0) s

/-- VAL_NUM: the mantissa of four digit characters (R603). On any other byte the value parse has failed, which no frame reaches and on
which a model must fault (R608, R706). -/
def execValNum (f1 f2 f3 f4 : Byte) (s : State) : Result :=
  if areDigits f1 f2 f3 f4 then .next (s.withRes (s.res.writeMant (BitVec.ofNat 14 (mantissa f1 f2 f3 f4))))
  else .fault .parseFailure

/-- DP_NONE: `if decpos == 0: scale <- 0` (R604). -/
def execDpNone (f6 : Byte) (s : State) : Result := writeIf (f6 == 0x30) (fun r => r.writeScale 0) s

/-- DP_1: `if decpos == 1: scale <- 3` (R605). -/
def execDp1 (f6 : Byte) (s : State) : Result := writeIf (f6 == 0x31) (fun r => r.writeScale 3) s

/-- DP_2: `if decpos == 2: scale <- 2` (R606). -/
def execDp2 (f6 : Byte) (s : State) : Result := writeIf (f6 == 0x32) (fun r => r.writeScale 2) s

/-- DP_3PLUS: `if decpos >= 3: scale <- 1`, for the bytes 0x33..0x39 of its row (R607). -/
def execDp3Plus (f6 : Byte) (s : State) : Result := writeIf (0x33 ≤ f6 && f6 ≤ 0x39) (fun r => r.writeScale 1) s

/-- BAR_RAW: `RES.BAR_RAW <- F[11]` (R610). -/
def execBarRaw (f11 : Byte) (s : State) : Result := .next (s.withRes (s.res.writeBar f11))

end Sys2Proof.Machine
end

