-- ==== Sys2Proof/Machine/Dispatch.lean ====
section
/-! DEFINITION. The dispatch of an instruction to its meaning: one arm per constructor. -/

namespace Sys2Proof.Machine

def exec (i : Instr) (s : State) : Host.Outcome State Fault Refusal :=
  match i with
  | .reset start => Sys2Proof.Machine.execReset start s
  | .decode len f => Sys2Proof.Machine.execDecode len f s
  | .idle => Sys2Proof.Machine.execIdle s
  | .rejLen len => Sys2Proof.Machine.execRejLen len s
  | .rejEncSign f0 => Sys2Proof.Machine.execRejEncSign f0 s
  | .rejEncDp f6 => Sys2Proof.Machine.execRejEncDp f6 s
  | .rejEncDigit f1 f2 f3 f4 => Sys2Proof.Machine.execRejEncDigit f1 f2 f3 f4 s
  | .valOl f1 f2 f3 f4 => Sys2Proof.Machine.execValOl f1 f2 f3 f4 s
  | .signEmpty f1 f2 f3 f4 => Sys2Proof.Machine.execSignEmpty f1 f2 f3 f4 s
  | .signVerbatim f0 f1 f2 f3 f4 => Sys2Proof.Machine.execSignVerbatim f0 f1 f2 f3 f4 s
  | .valNum f1 f2 f3 f4 => Sys2Proof.Machine.execValNum f1 f2 f3 f4 s
  | .dpNone f6 => Sys2Proof.Machine.execDpNone f6 s
  | .dp1 f6 => Sys2Proof.Machine.execDp1 f6 s
  | .dp2 f6 => Sys2Proof.Machine.execDp2 f6 s
  | .dp3Plus f6 => Sys2Proof.Machine.execDp3Plus f6 s
  | .flagBpn s1 => Sys2Proof.Machine.execFlagBpn s1 s
  | .flagHold s1 => Sys2Proof.Machine.execFlagHold s1 s
  | .flagRel s1 => Sys2Proof.Machine.execFlagRel s1 s
  | .flagAc s1 => Sys2Proof.Machine.execFlagAc s1 s
  | .flagDc s1 => Sys2Proof.Machine.execFlagDc s1 s
  | .flagAuto s1 => Sys2Proof.Machine.execFlagAuto s1 s
  | .flagBatt s2 => Sys2Proof.Machine.execFlagBatt s2 s
  | .flagApo s2 => Sys2Proof.Machine.execFlagApo s2 s
  | .flagMin s2 => Sys2Proof.Machine.execFlagMin s2 s
  | .flagMax s2 => Sys2Proof.Machine.execFlagMax s2 s
  | .pfxNone s3 => Sys2Proof.Machine.execPfxNone s3 s
  | .pfxM s3 => Sys2Proof.Machine.execPfxM s3 s
  | .pfxKilo s3 => Sys2Proof.Machine.execPfxKilo s3 s
  | .pfxMilli s3 => Sys2Proof.Machine.execPfxMilli s3 s
  | .pfxMicro s3 => Sys2Proof.Machine.execPfxMicro s3 s
  | .pfxNano s2 s4 => Sys2Proof.Machine.execPfxNano s2 s4 s
  | .modeNone s4 => Sys2Proof.Machine.execModeNone s4 s
  | .modeDegF s4 => Sys2Proof.Machine.execModeDegF s4 s
  | .modeDegC s4 => Sys2Proof.Machine.execModeDegC s4 s
  | .modeFarad s4 => Sys2Proof.Machine.execModeFarad s4 s
  | .modeHz s4 => Sys2Proof.Machine.execModeHz s4 s
  | .modeHfe s4 => Sys2Proof.Machine.execModeHfe s4 s
  | .modeOhm s4 => Sys2Proof.Machine.execModeOhm s4 s
  | .modeA s4 => Sys2Proof.Machine.execModeA s4 s
  | .modeV s4 => Sys2Proof.Machine.execModeV s4 s
  | .unit => Sys2Proof.Machine.execUnit s
  | .barRaw f11 => Sys2Proof.Machine.execBarRaw f11 s

end Sys2Proof.Machine
end

