-- ==== Sys2Proof/Machine/Step.lean ====
section
/-! DEFINITION. One step: one rising edge of `clk`. The command the port levels select runs, and the host presents its next levels. -/

namespace Sys2Proof.Machine

/-- One edge. Inputs that meet setup and hold select a command (R301), which runs at once (R206, R208); inputs that do not leave RES with
any value (R805), whatever command the levels select: DESIGN CHOICE, log 12. -/
def step (s : State) : Host.Outcome State Fault Refusal :=
  if s.ports.stable then
    match exec (decodeEdge s.ports) s with
    | .next t => .next t.advance
    | .fault r => .fault r
    | .refused r => .refused r
  else .next s.unstableEdge.advance

/-- Present a table word on the input ports, so that the next edge runs it (log 5). -/
def State.withFetchWord (s : State) (nbits w : Nat) : State := { s with ports := edgeOfTableWord nbits w }

end Sys2Proof.Machine
end

