-- ==== Sys2Proof/Machine/Readout.lean ====
section
/-! DEFINITION. What a host reads from RES: the Measurement record of R611. Reading changes no state (R806, R810). -/

namespace Sys2Proof.Machine

/-- The value of an accepted result: the overflow marker "OL", or an exact decimal (R608, R611). -/
inductive Value where
  | overflow
  | number (d : Decimal)
  deriving DecidableEq, Repr

/-- The document's record (R12, R611). BAR_RAW is no part of it (R610). -/
structure Measurement where
  sign : Text
  value : Value
  unit : Text
  status : List StatusTag
  deriving DecidableEq, Repr

/-- The result of the last DECODE as a host reads it (R611). -/
inductive Reading where
  /-- VALID = 0: there is no result (R104). -/
  | noResult
  /-- `Rejected(InvalidLength)`. -/
  | rejectedLength
  /-- `Rejected(InvalidEncoding)`. -/
  | rejectedEncoding
  /-- An accepted frame. -/
  | measured (m : Measurement)
  deriving DecidableEq, Repr

/-- `chr(b)`: the character whose code is the byte, for a byte up to `CHAR_MAX` (R10). R10 defines none above it, which only a RES of
unspecified contents can hold (U8, U9): there the code point is a free value, DESIGN CHOICE, log 11. -/
def chr (b : Byte) : Nat := if b ≤ Config.charMax then b.toNat else Config.highChar b

/-- The sign string (R107). For a SIGN_CHAR above `CHAR_MAX` it is one free character: DESIGN CHOICE, log 11. -/
def signText (r : Res) : Text := if r.signEmpty then [] else [chr r.signChar]

/-- The value (R110, R608). -/
def readValue (r : Res) : Value :=
  if r.valOl then .overflow else .number { mant := r.valMant.toNat, scale := r.valScale.toNat }

/-- Read RES as R611 says. A host ignores every other field while VALID is 0 (R104); a code no rule writes is a fault (U10, U11). -/
def readResult (r : Res) : Except Fault Reading :=
  if ! r.valid then .ok .noResult
  else if r.kind = kindInvalidLength then .ok .rejectedLength
  else if r.kind = kindInvalidEncoding then .ok .rejectedEncoding
  else if r.kind = kindOk then
    match unitText r.pfx r.mode with
    | .ok unit => .ok (.measured { sign := signText r, value := readValue r, unit := unit, status := statusTags r.status })
    | .error e => .error e
  else .error .kindCode

/-- Read a whole `res_word`: its reserved bits must be 0 (R103, U12). -/
def readResWord (w : BitVec 64) : Except Fault Reading :=
  if w.extractLsb' 54 10 ≠ 0 then .error .reservedBits else readResult (Res.ofWord w)

end Sys2Proof.Machine
end

