-- ==== Sys2Proof/Machine/RowRun.lean ====
section
/-! DEFINITION. The frame decode table run row by row: what a DECODE does, said through the meanings of the rows (R300, R315). -/

namespace Sys2Proof.Machine

/-- Run a list of rows one after the other, stopping at the first that does not answer a next state (R9: statements run in order). -/
def runRows : List Instr → State → Result
  | [], s => .next s
  | i :: is, s =>
    match exec i s with
    | .next t => runRows is t
    | .fault r => .fault r
    | .refused r => .refused r

/-- RES before the rows of a transaction run: nothing of an earlier transaction survives (R208), VALID is 1 and KIND is OK (R407), and a
field whose row does not match stays 0 (opcode_table.json: "otherwise 0"). -/
def Res.opened : Res := { Res.cleared with valid := true, kind := kindOk }

/-- A whole transaction by rows: the rows the decode map selects, run on an opened RES. -/
def runTransaction (len : Byte) (f : Frame) (s : State) : Result := runRows (decodeRows len f) (s.withRes Res.opened)

end Sys2Proof.Machine
end

