-- ==== Sys2Proof/Safety.lean ====
section
/-! DEFINITION. What counts as a safe state and a safe run: RES holds only what the rules write, and the inputs to come meet setup and
hold. -/

namespace Sys2Proof.Machine

/-- RES holds a combination of values that RESET or DECODE writes: before any DECODE everything is 0; a rejection clears all but VALID and
KIND (R701); an accepted result has legal codes (R103), an empty sign exactly with the overflow marker (R106, R108), prefix n only under
mode F (R527), and an overflow result no value and no sign character (R107, R109, R110). -/
structure Res.Legal (r : Res) : Prop where
  kind_written : r.kind ≠ 3
  no_result : r.valid = false → r = Res.cleared
  rejected : r.kind ≠ kindOk → r = rejectedRes r.kind
  sign_is_char : r.signChar ≤ Config.charMax
  mant_bound : r.valMant.toNat ≤ 9999
  pfx_written : r.pfx.toNat < Config.nPfx
  mode_written : r.mode.toNat < Config.nMode
  nano_under_farad : r.pfx = pfxCodeNano → r.mode = modeCodeFarad
  empty_iff_overflow : r.signEmpty = r.valOl
  overflow_cleared : r.valOl = true → r.signChar = 0 ∧ r.valMant = 0 ∧ r.valScale = 0

/-- Every edge the host presents, now and later, meets setup and hold (R805). -/
def State.InputsStable (s : State) : Prop := s.ports.stable = true ∧ ∀ e ∈ s.script, e.stable = true

/-- The invariant of a run whose inputs meet setup and hold, after a first RESET or DECODE. -/
structure State.Inv (s : State) : Prop where
  legal : s.res.Legal
  stable : s.InputsStable

/-- A host can read a result from the state: no code that no rule writes (D29). -/
def State.Readable (s : State) : Prop := ∃ reading, readResult s.res = .ok reading

/-! ### The checks and the frames, as the spec words them (R404, R405, R406, R410) -/

/-- Bytes 1..4 are the overflow pattern (R600). -/
def HasOverflow (f : Frame) : Prop :=
  isOverflowBytes (frameByte f 1) (frameByte f 2) (frameByte f 3) (frameByte f 4)

/-- Bytes 1..4 are four digit characters (R406). -/
def HasDigits (f : Frame) : Prop :=
  inDigitRange (frameByte f 1) ∧ inDigitRange (frameByte f 2) ∧ inDigitRange (frameByte f 3) ∧ inDigitRange (frameByte f 4)

/-- The frame passes the character checks: byte 0 is a character, byte 6 a digit, bytes 1..4 the overflow pattern or four digits
(R404, R405, R406). -/
def PassesChecks (f : Frame) : Prop :=
  frameByte f 0 ≤ 0x7F ∧ inDigitRange (frameByte f 6) ∧ (HasOverflow f ∨ HasDigits f)

/-- Two frames agree on every bit that a rule reads, byte 11 aside (R314, R410). -/
structure ReadAlike (f g : Frame) : Prop where
  sign : frameByte f 0 = frameByte g 0
  digit1 : frameByte f 1 = frameByte g 1
  digit2 : frameByte f 2 = frameByte g 2
  digit3 : frameByte f 3 = frameByte g 3
  digit4 : frameByte f 4 = frameByte g 4
  point : frameByte f 6 = frameByte g 6
  status1 : frameByte f 7 &&& 0x3F = frameByte g 7 &&& 0x3F
  status2 : frameByte f 8 &&& 0x3E = frameByte g 8 &&& 0x3E
  status3 : frameByte f 9 &&& 0xF0 = frameByte g 9 &&& 0xF0
  status4 : frameByte f 10 = frameByte g 10

/-- The instruction writes flag `n` of RES.STATUS with `b`, and nothing else of the state. -/
def WritesFlag (i : Instr) (n : Nat) (b : Bool) : Prop :=
  ∀ s : State, ∃ t, exec i s = .next t ∧ t = s.withRes { s.res with status := t.res.status } ∧
    ∀ j < 10, t.res.status.getLsbD j = if j = n then b else s.res.status.getLsbD j

/-- The instruction writes prefix code `c`, and nothing else, when its condition holds, and changes nothing when it does not. -/
def WritesPfxWhen (i : Instr) (c : BitVec 3) : Prop :=
  ∀ s : State, (i.WellFormed → exec i s = .next (s.withRes { s.res with pfx := c })) ∧ (¬ i.WellFormed → exec i s = .next s)

/-- The instruction writes mode code `c`, and nothing else, when its condition holds, and changes nothing when it does not. -/
def WritesModeWhen (i : Instr) (c : BitVec 4) : Prop :=
  ∀ s : State, (i.WellFormed → exec i s = .next (s.withRes { s.res with mode := c })) ∧ (¬ i.WellFormed → exec i s = .next s)

/-- The instruction writes scale `c`, and nothing else, when its condition holds, and changes nothing when it does not. -/
def WritesScaleWhen (i : Instr) (c : BitVec 2) : Prop :=
  ∀ s : State, (i.WellFormed → exec i s = .next (s.withRes { s.res with valScale := c })) ∧ (¬ i.WellFormed → exec i s = .next s)

/-- The highest set bit of a byte is bit `n`. -/
def HighestBit (b : Byte) (n : Nat) : Prop := b.getLsbD n = true ∧ ∀ m, n < m → b.getLsbD m = false

end Sys2Proof.Machine
end

