-- ==== Sys2Proof/Certificates/Slice0/Obligations.lean ====
section
/-! DEFINITION. The statements for the provers. -/

open Sys2Proof Sys2Proof.Machine

/-! ### Decoding and the step -/

/-- R301: CTRL is 2 bits, bit 1 `rst` and bit 0 `start`; 1x selects RESET, which ignores `start`, 01 selects DECODE, 00 IDLE. -/
def Obligations.ControlWordSelectsCommand : Prop :=
  ∀ e : Edge,
    (ctrlWord e).getLsbD 1 = e.rst ∧ (ctrlWord e).getLsbD 0 = e.start ∧
    (e.rst = true → decodeEdge e = .reset e.start ∧ ∀ s : State, exec (.reset e.start) s = exec (.reset false) s) ∧
    (e.rst = false → e.start = true → decodeEdge e = .decode e.inLen e.inFrame) ∧
    (e.rst = false → e.start = false → decodeEdge e = .idle)

/-- A step runs the decoded command: at an edge that meets setup and hold, the command is well-formed, it answers a next state, and the
step is that state with the host's next levels on the ports (R206, R208). What the ports hold after the script is log 1's choice. -/
def Obligations.StepRunsTheDecodedCommand : Prop :=
  ∀ s : State, s.ports.stable = true →
    (decodeEdge s.ports).WellFormed ∧
    ∃ t u, exec (decodeEdge s.ports) s = .next t ∧ step s = .next u ∧ u.res = t.res ∧ u.freeIndex = s.freeIndex ∧
      (s.script = [] → u.ports = s.ports ∧ u.script = []) ∧
      ∀ e es, s.script = e :: es → u.ports = e ∧ u.script = es

/-- R801: at an edge with `rst` = 1 and `start` = 1, RESET takes effect and no DECODE happens; the presented frame is lost: with another
frame or length at that edge, and the host moving on to its next levels, the step answers the very same state. The edge meets setup
and hold, as R805 asks of the host (log 12). -/
def Obligations.ResetBeatsStart : Prop :=
  ∀ s : State, s.ports.stable = true → s.ports.rst = true → s.ports.start = true →
    (∃ t, step s = .next t ∧ t.res = Res.cleared) ∧
    ∀ e es len f, s.script = e :: es → step { s with ports := { s.ports with inLen := len, inFrame := f } } = step s

/-- A few words written out from the spec's encodings decode to what they stand for: the three control words (R301), the row REJ_ENC_SIGN,
and the frames of 95_test_vectors.md P1 and P3. What stands on the other ports beside a table word is the model's choice (log 5, log 7). -/
def Obligations.WrittenWordsDecode : Prop :=
  decodeTableWord 8 0b10 = some (.reset false) ∧ decodeTableWord 8 0b11 = some (.reset true) ∧
  decodeTableWord 8 0b01 = some (.decode 0 0) ∧ decodeTableWord 8 0b00 = some .idle ∧
  decodeTableWord 112 0x0000000000000000000000000080 = some (.rejEncSign 0x80) ∧
  decodeRows 14 0x000000802000003200303530302B =
    [.valNum 0x30 0x30 0x35 0x30, .signVerbatim 0x2B 0x30 0x30 0x35 0x30, .dp2 0x32, .pfxKilo 0x20, .modeV 0x80, .unit,
     .barRaw 0x00] ∧
  decodeRows 14 0x0000002000002231003F3A303F2B =
    [.valOl 0x3F 0x30 0x3A 0x3F, .signEmpty 0x3F 0x30 0x3A 0x3F, .flagHold 0x22, .flagAuto 0x22, .pfxNone 0x00, .modeOhm 0x20,
     .unit, .barRaw 0x00]

/-- Decode and encode agree on the commands: every command's code is read back as the command, and every control word is the code of the
command it selects, up to the ports that command does not sample (R301). -/
def Obligations.CommandCodesRoundTrip : Prop :=
  (∀ i : Instr, ∀ ctrl len f, encode i = .command ctrl len f → decodeCommand ctrl len f = i) ∧
  (∀ ctrl len f, ∃ len' f', encode (decodeCommand ctrl len f) = .command ctrl len' f')

/-- Decode and encode agree on every row of the frame decode table: the decode map selects row `i` from a presentation exactly when `i`
meets its table test, the presentation carries the length and the bytes of `i`'s code, and the map reaches `i`'s step (R315). -/
def Obligations.RowsSelectedExactlyByTheTable : Prop :=
  ∀ (i : Instr) (len : Byte) (f : Frame),
    i ∈ decodeRows len f ↔ i.WellFormed ∧ (encode i).carriedBy len f ∧ classify len f ∈ reachedIn i

/-- Every row that the decode map selects meets its byte tests in the opcode table: the frame byte under the row's mask is the row's
match (spec/opcode_table.json, "bytes"). -/
def Obligations.SelectedRowsMeetTheTableTests : Prop :=
  ∀ (len : Byte) (f : Frame), ∀ i ∈ decodeRows len f, ∀ p ∈ tableBytes i, frameByte f p.1 &&& p.2.1 = p.2.2

/-- The decode map of R315 in the spec's own words: which step a presentation stops at. -/
def Obligations.FrameDecodeMapOrder : Prop :=
  ∀ (len : Byte) (f : Frame),
    (classify len f = .rejLen ↔ len ≠ 14) ∧
    (classify len f = .rejSign ↔ len = 14 ∧ 0x7F < frameByte f 0) ∧
    (classify len f = .rejDp ↔ len = 14 ∧ frameByte f 0 ≤ 0x7F ∧ ¬ inDigitRange (frameByte f 6)) ∧
    (classify len f = .rejDigit ↔
      len = 14 ∧ frameByte f 0 ≤ 0x7F ∧ inDigitRange (frameByte f 6) ∧ ¬ HasOverflow f ∧ ¬ HasDigits f) ∧
    (classify len f = .overflow ↔ len = 14 ∧ frameByte f 0 ≤ 0x7F ∧ inDigitRange (frameByte f 6) ∧ HasOverflow f) ∧
    (classify len f = .numeric ↔ len = 14 ∧ frameByte f 0 ≤ 0x7F ∧ inDigitRange (frameByte f 6) ∧ HasDigits f)

/-! ### The commands -/

/-- RESET writes every field of RES with its reset value and changes nothing else, whatever `start` is (R800, R103). -/
def Obligations.ResetClearsEveryField : Prop :=
  ∀ (b : Bool) (s : State), exec (.reset b) s = .next (s.withRes
    { valid := false, kind := 0, signEmpty := false, signChar := 0, valOl := false, valMant := 0, valScale := 0, pfx := 0,
      mode := 0, status := 0, barRaw := 0 })

/-- R401: IDLE holds RES, VALID included; `in_len` and `in_frame` are not sampled, and any value on them has no effect on RES. The
second clause is about an edge that meets setup and hold, as R805 asks of the host (log 12). -/
def Obligations.IdleHoldsRes : Prop :=
  (∀ s : State, exec .idle s = .next s) ∧
  ∀ (s : State) (len : Byte) (f : Frame), s.ports.stable = true → s.ports.rst = false → s.ports.start = false →
    ∃ t, step { s with ports := { s.ports with inLen := len, inFrame := f } } = .next t ∧ t.res = s.res

/-- DECODE completes on every length, every frame and every state: it answers a next state with VALID 1 and only values that the rules
write, and changes nothing but RES (R400, R104, D29). -/
def Obligations.DecodeAlwaysCompletes : Prop :=
  ∀ (len : Byte) (f : Frame) (s : State), ∃ r : Res, exec (.decode len f) s = .next (s.withRes r) ∧ r.valid = true ∧ r.Legal

/-- R409: DECODE is a function of LEN and F alone: equal inputs write equal values to every field, from whatever state. -/
def Obligations.DecodeDependsOnInputsOnly : Prop :=
  ∀ (len : Byte) (f : Frame), ∃ r : Res, ∀ s : State, exec (.decode len f) s = .next (s.withRes r)

/-- Frames that agree on every bit a rule reads give equal RES, and equal RES apart from BAR_RAW when byte 11 differs (R314, R410). -/
def Obligations.IgnoredBitsHaveNoEffect : Prop :=
  ∀ (len : Byte) (f g : Frame) (s : State), ReadAlike f g →
    ∃ t u, exec (.decode len f) s = .next t ∧ exec (.decode len g) s = .next u ∧
      (frameByte f 11 = frameByte g 11 → u = t) ∧ u = t.withRes { t.res with barRaw := u.res.barRaw }

/-- DECODE, written from R400's pseudocode, does what the selected rows of the frame decode table do when they run one after the other
on an opened RES, and no row faults: the run answers a next state (R300, R315, R400, R407, R701). That rows run as instructions, on a RES opened so, is the model's
reading (log 8). -/
def Obligations.DecodeRunsItsRows : Prop :=
  ∀ (len : Byte) (f : Frame) (s : State), exec (.decode len f) s = runTransaction len f s ∧ ∃ t, runTransaction len f s = .next t

/-- Every edge completes in one step with a next state: no command stalls, faults or is refused (R804, R706). -/
def Obligations.EveryEdgeCompletes : Prop :=
  ∀ s : State, ∃ t, step s = .next t

/-- No instruction changes anything but RES: the ports, every byte of the frame space, the host's script and the model's own index are as
before (R205). -/
def Obligations.OnlyResIsWritten : Prop :=
  ∀ (i : Instr) (s t : State), exec i s = .next t →
    t.ports = s.ports ∧ t.script = s.script ∧ t.freeIndex = s.freeIndex ∧
    ∀ k : Fin 14, frameByte t.ports.inFrame k = frameByte s.ports.inFrame k

/-! ### Rejections -/

/-- The length check: every length but 14 rejects with INVALID_LENGTH, in DECODE whatever the frame holds and in the row REJ_LEN; the row
changes nothing for length 14 (R402). A row run by itself is the model's reading (log 8). -/
def Obligations.WrongLengthRejects : Prop :=
  (∀ (len : Byte) (f : Frame) (s : State), len ≠ 14 →
    exec (.decode len f) s = .next (s.withRes { Res.cleared with valid := true, kind := 1 }) ∧
    exec (.rejLen len) s = .next (s.withRes { Res.cleared with valid := true, kind := 1 })) ∧
  ∀ s : State, exec (.rejLen 14) s = .next s

/-- The rows REJ_ENC_SIGN, REJ_ENC_DP and REJ_ENC_DIGIT: each rejects with INVALID_ENCODING exactly when its byte or bytes fail its check,
and changes nothing otherwise (R404, R405, R406). A row run by itself is the model's reading (log 8). -/
def Obligations.CharacterCheckRows : Prop :=
  ∀ (s : State) (f0 f1 f2 f3 f4 f6 : Byte),
    (0x80 ≤ f0 → exec (.rejEncSign f0) s = .next (s.withRes { Res.cleared with valid := true, kind := 2 })) ∧
    (f0 < 0x80 → exec (.rejEncSign f0) s = .next s) ∧
    (¬ inDigitRange f6 → exec (.rejEncDp f6) s = .next (s.withRes { Res.cleared with valid := true, kind := 2 })) ∧
    (inDigitRange f6 → exec (.rejEncDp f6) s = .next s) ∧
    (¬ isOverflowBytes f1 f2 f3 f4 →
      ¬ (inDigitRange f1 ∧ inDigitRange f2 ∧ inDigitRange f3 ∧ inDigitRange f4) →
      exec (.rejEncDigit f1 f2 f3 f4) s = .next (s.withRes { Res.cleared with valid := true, kind := 2 })) ∧
    (isOverflowBytes f1 f2 f3 f4 → exec (.rejEncDigit f1 f2 f3 f4) s = .next s) ∧
    (inDigitRange f1 → inDigitRange f2 → inDigitRange f3 → inDigitRange f4 →
      exec (.rejEncDigit f1 f2 f3 f4) s = .next s)

/-- R701: a rejected DECODE writes every field: VALID 1, KIND the kind, every other field 0; nothing else changes, and the block stays
ready: the next edge completes. -/
def Obligations.RejectionWritesEveryField : Prop :=
  (∀ (kind : BitVec 2) (s : State), raiseReject kind s = .next (s.withRes
    { valid := true, kind := kind, signEmpty := false, signChar := 0, valOl := false, valMant := 0, valScale := 0, pfx := 0,
      mode := 0, status := 0, barRaw := 0 })) ∧
  ∀ (len : Byte) (f : Frame) (s : State), ¬ (len = 14 ∧ PassesChecks f) →
    exec (.decode len f) s = raiseReject (if len = 14 then 2 else 1) s ∧
    ∃ t u, raiseReject (if len = 14 then 2 else 1) s = .next t ∧ step t = .next u

/-- R702: the first failed check is reported, the length check before the character checks, which share one kind; a frame is accepted
only when every check passes. -/
def Obligations.FirstFailedCheckIsReported : Prop :=
  ∀ (len : Byte) (f : Frame) (s : State), ∃ t, exec (.decode len f) s = .next t ∧
    (t.res.kind = 1 ↔ len ≠ 14) ∧
    (t.res.kind = 2 ↔ len = 14 ∧ ¬ PassesChecks f) ∧
    (t.res.kind = 0 ↔ len = 14 ∧ PassesChecks f)

/-- R408: once a frame passes the checks, the decode cannot reject it: every value of bytes 7 to 11 is accepted. -/
def Obligations.CheckedFramesAreAccepted : Prop :=
  ∀ (f : Frame) (s : State), PassesChecks f →
    ∃ t, exec (.decode 14 f) s = .next t ∧ t.res.valid = true ∧ t.res.kind = 0

/-! ### The value -/

/-- An overflow frame that passes the sign and decimal-point checks: OL, the empty sign, mantissa and scale 0; the host reads value OL and
sign "" (R600, R602, C2). -/
def Obligations.OverflowFrameReadsOL : Prop :=
  ∀ (f : Frame) (s : State), frameByte f 0 ≤ 0x7F → inDigitRange (frameByte f 6) → HasOverflow f →
    ∃ t m, exec (.decode 14 f) s = .next t ∧ t.res.kind = 0 ∧ t.res.valOl = true ∧ t.res.valMant = 0 ∧ t.res.valScale = 0 ∧
      t.res.signEmpty = true ∧ t.res.signChar = 0 ∧
      readResult t.res = .ok (.measured m) ∧ m.value = .overflow ∧ m.sign = []

/-- The value path does not affect the status, prefix, mode and bar fields: two accepted frames that agree on bytes 7 to 11 agree on them,
be one overflow and the other numeric (R529). -/
def Obligations.ValuePathLeavesFlagsAndUnits : Prop :=
  ∀ (f g : Frame) (s : State), PassesChecks f → PassesChecks g →
    frameByte f 7 = frameByte g 7 → frameByte f 8 = frameByte g 8 → frameByte f 9 = frameByte g 9 →
    frameByte f 10 = frameByte g 10 → frameByte f 11 = frameByte g 11 →
    ∃ t u, exec (.decode 14 f) s = .next t ∧ exec (.decode 14 g) s = .next u ∧
      t.res.status = u.res.status ∧ t.res.pfx = u.res.pfx ∧ t.res.mode = u.res.mode ∧ t.res.barRaw = u.res.barRaw

/-- A numeric frame: the mantissa is the four digits as a number, at most 9999, and the scale is 0, 3, 2 or 1 for decpos 0, 1, 2 or
3 to 9 (R603, R604 to R607, R612). -/
def Obligations.NumericFrameValue : Prop :=
  ∀ (f : Frame) (s : State), frameByte f 0 ≤ 0x7F → inDigitRange (frameByte f 6) → HasDigits f →
    ∃ t, exec (.decode 14 f) s = .next t ∧ t.res.kind = 0 ∧ t.res.valOl = false ∧
      t.res.valMant.toNat = 1000 * ((frameByte f 1).toNat - 0x30) + 100 * ((frameByte f 2).toNat - 0x30) +
        10 * ((frameByte f 3).toNat - 0x30) + ((frameByte f 4).toNat - 0x30) ∧
      t.res.valMant.toNat ≤ 9999 ∧
      (frameByte f 6 = 0x30 → t.res.valScale = 0) ∧ (frameByte f 6 = 0x31 → t.res.valScale = 3) ∧
      (frameByte f 6 = 0x32 → t.res.valScale = 2) ∧ (0x33 ≤ frameByte f 6 → t.res.valScale = 1)

/-- The value a host reads after a numeric accept is the number that the punctuated digit string denotes in base 10, and the parse of that
string cannot fail (R608, R612, R706). -/
def Obligations.ValueIsThePunctuatedString : Prop :=
  ∀ (f : Frame) (s : State), frameByte f 0 ≤ 0x7F → inDigitRange (frameByte f 6) → HasDigits f →
    ∃ t d, exec (.decode 14 f) s = .next t ∧
      parseDecimal (insertPoint (digitText (frameByte f 1) (frameByte f 2) (frameByte f 3) (frameByte f 4))
        ((frameByte f 6).toNat - 0x30)) = some d ∧
      readValue t.res = .number d ∧ d.toRat = (t.res.valMant.toNat : ℚ) / (10 : ℚ) ^ t.res.valScale.toNat ∧
      0 ≤ d.toRat ∧ d.toRat ≤ 9999

/-- The rows VAL_OL, SIGN_EMPTY and SIGN_VERBATIM: what each writes on the overflow pattern and off it, and nothing else
(R600, R601, R602). A row run by itself is the model's reading (log 8). -/
def Obligations.OverflowAndSignRows : Prop :=
  ∀ (s : State) (f0 f1 f2 f3 f4 : Byte),
    (isOverflowBytes f1 f2 f3 f4 →
      exec (.valOl f1 f2 f3 f4) s = .next (s.withRes { s.res with valOl := true, valMant := 0, valScale := 0 }) ∧
      exec (.signEmpty f1 f2 f3 f4) s = .next (s.withRes { s.res with signEmpty := true, signChar := 0 }) ∧
      exec (.signVerbatim f0 f1 f2 f3 f4) s = .next s) ∧
    (¬ isOverflowBytes f1 f2 f3 f4 →
      exec (.valOl f1 f2 f3 f4) s = .next s ∧ exec (.signEmpty f1 f2 f3 f4) s = .next s ∧
      exec (.signVerbatim f0 f1 f2 f3 f4) s = .next (s.withRes { s.res with signEmpty := false, signChar := f0 }))

/-- The row VAL_NUM: on four digit characters it writes the mantissa and clears VAL_OL, and nothing else; on any other byte the value parse
has failed and the model faults (R603, R706; log 9). -/
def Obligations.MantissaRow : Prop :=
  ∀ (s : State) (f1 f2 f3 f4 : Byte),
    (inDigitRange f1 → inDigitRange f2 → inDigitRange f3 → inDigitRange f4 →
      exec (.valNum f1 f2 f3 f4) s = .next (s.withRes { s.res with
        valOl := false
        valMant := BitVec.ofNat 14 (1000 * (f1.toNat - 0x30) + 100 * (f2.toNat - 0x30) + 10 * (f3.toNat - 0x30) +
          (f4.toNat - 0x30)) })) ∧
    (¬ (inDigitRange f1 ∧ inDigitRange f2 ∧ inDigitRange f3 ∧ inDigitRange f4) →
      exec (.valNum f1 f2 f3 f4) s = .fault .parseFailure)

/-- The rows DP_NONE, DP_1, DP_2 and DP_3PLUS write scale 0, 3, 2 and 1 on their bytes 0x30, 0x31, 0x32 and 0x33 to 0x39, and nothing else;
on another byte each changes nothing (R604 to R607). A row run by itself is the model's reading (log 8). -/
def Obligations.DecimalPointRows : Prop :=
  ∀ f6 : Byte, WritesScaleWhen (.dpNone f6) 0 ∧ WritesScaleWhen (.dp1 f6) 3 ∧ WritesScaleWhen (.dp2 f6) 2 ∧
    WritesScaleWhen (.dp3Plus f6) 1

/-- R114: BAR_RAW is frame byte 11 after an accept, 0 after a rejection and after reset; it is no part of the Measurement. -/
def Obligations.BarByteCopiedVerbatim : Prop :=
  (∀ (f : Frame) (s : State), PassesChecks f → ∃ t, exec (.decode 14 f) s = .next t ∧ t.res.barRaw = frameByte f 11) ∧
  (∀ (len : Byte) (f : Frame) (s : State), ¬ (len = 14 ∧ PassesChecks f) →
    ∃ t, exec (.decode len f) s = .next t ∧ t.res.barRaw = 0) ∧
  (∀ (b : Bool) (s : State), ∃ t, exec (.reset b) s = .next t ∧ t.res.barRaw = 0) ∧
  ∀ (r : Res) (b : Byte), readResult { r with barRaw := b } = readResult r

/-- R106, R107, R108: SIGN_EMPTY and VAL_OL are 1 exactly after an overflow accept; SIGN_CHAR is byte 0, a value up to 0x7F, after a
numeric accept; all are 0 otherwise and after reset; and the sign string is empty or `chr(SIGN_CHAR)`, by the pair, with `chr` of a byte up
to 0x7F that code point (above it the spec defines no character: log 11). -/
def Obligations.SignAndOverflowFields : Prop :=
  (∀ (len : Byte) (f : Frame) (s : State), ∃ t, exec (.decode len f) s = .next t ∧
    (t.res.signEmpty = true ↔ len = 14 ∧ PassesChecks f ∧ HasOverflow f) ∧
    (t.res.valOl = true ↔ len = 14 ∧ PassesChecks f ∧ HasOverflow f) ∧
    (len = 14 → PassesChecks f → HasDigits f → t.res.signChar = frameByte f 0 ∧ t.res.signChar ≤ 0x7F) ∧
    (¬ (len = 14 ∧ PassesChecks f ∧ HasDigits f) → t.res.signChar = 0)) ∧
  (∀ (b : Bool) (s : State), ∃ t, exec (.reset b) s = .next t ∧
    t.res.signEmpty = false ∧ t.res.valOl = false ∧ t.res.signChar = 0) ∧
  (∀ r : Res, (r.signEmpty = true → signText r = []) ∧ (r.signEmpty = false → signText r = [chr r.signChar])) ∧
  ∀ b : Byte, b ≤ 0x7F → chr b = b.toNat

/-! ### The status flags -/

/-- The six flag rows of status byte 1: each writes its own bit of RES.STATUS with its bit of byte 7, leaves the other nine and everything
else (R501 to R506). A row run by itself is the model's reading (log 8). -/
def Obligations.FlagRowsOfStatusByte1 : Prop :=
  ∀ s1 : Byte,
    WritesFlag (.flagBpn s1) 0 (s1.getLsbD 0) ∧ WritesFlag (.flagHold s1) 1 (s1.getLsbD 1) ∧
    WritesFlag (.flagRel s1) 2 (s1.getLsbD 2) ∧ WritesFlag (.flagAc s1) 3 (s1.getLsbD 3) ∧
    WritesFlag (.flagDc s1) 4 (s1.getLsbD 4) ∧ WritesFlag (.flagAuto s1) 5 (s1.getLsbD 5)

/-- The four flag rows of status byte 2: bits 2 to 5 of byte 8 are flags 6 to 9 (R507 to R510). A row run by itself is the model's
reading (log 8). -/
def Obligations.FlagRowsOfStatusByte2 : Prop :=
  ∀ s2 : Byte,
    WritesFlag (.flagBatt s2) 6 (s2.getLsbD 2) ∧ WritesFlag (.flagApo s2) 7 (s2.getLsbD 3) ∧
    WritesFlag (.flagMin s2) 8 (s2.getLsbD 4) ∧ WritesFlag (.flagMax s2) 9 (s2.getLsbD 5)

/-- R113: STATUS[i] is flag i of the last accepted frame; all ten are 0 after a rejection and after reset; the tags read are those of the
set bits, in increasing bit order, BPN first and MAX last. -/
def Obligations.StatusBitsOfAnAcceptedFrame : Prop :=
  (∀ (f : Frame) (s : State), PassesChecks f → ∃ t, exec (.decode 14 f) s = .next t ∧
    (∀ i < 6, t.res.status.getLsbD i = (frameByte f 7).getLsbD i) ∧
    ∀ i < 4, t.res.status.getLsbD (i + 6) = (frameByte f 8).getLsbD (i + 2)) ∧
  (∀ (len : Byte) (f : Frame) (s : State), ¬ (len = 14 ∧ PassesChecks f) →
    ∃ t, exec (.decode len f) s = .next t ∧ t.res.status = 0) ∧
  (∀ (b : Bool) (s : State), ∃ t, exec (.reset b) s = .next t ∧ t.res.status = 0) ∧
  (∀ status : BitVec 10, (statusTags status).Sublist [.BPN, .HOLD, .REL, .AC, .DC, .AUTO, .BATT, .APO, .MIN, .MAX]) ∧
  ∀ status : BitVec 10,
    (.BPN ∈ statusTags status ↔ status.getLsbD 0 = true) ∧ (.HOLD ∈ statusTags status ↔ status.getLsbD 1 = true) ∧
    (.REL ∈ statusTags status ↔ status.getLsbD 2 = true) ∧ (.AC ∈ statusTags status ↔ status.getLsbD 3 = true) ∧
    (.DC ∈ statusTags status ↔ status.getLsbD 4 = true) ∧ (.AUTO ∈ statusTags status ↔ status.getLsbD 5 = true) ∧
    (.BATT ∈ statusTags status ↔ status.getLsbD 6 = true) ∧ (.APO ∈ statusTags status ↔ status.getLsbD 7 = true) ∧
    (.MIN ∈ statusTags status ↔ status.getLsbD 8 = true) ∧ (.MAX ∈ statusTags status ↔ status.getLsbD 9 = true)

/-! ### Units -/

/-- The rows PFX_NONE to PFX_u and the nano override PFX_n write their prefix codes on their bytes, and nothing else; on other bytes each
changes nothing (R512 to R516, R527). A row run by itself is the model's reading (log 8). -/
def Obligations.UnitPrefixRows : Prop :=
  ∀ s2 s3 s4 : Byte,
    WritesPfxWhen (.pfxNone s3) 0 ∧ WritesPfxWhen (.pfxM s3) 1 ∧ WritesPfxWhen (.pfxKilo s3) 2 ∧
    WritesPfxWhen (.pfxMilli s3) 3 ∧ WritesPfxWhen (.pfxMicro s3) 4 ∧ WritesPfxWhen (.pfxNano s2 s4) 5

/-- The nine mode rows write their mode codes on their bytes, and nothing else; on other bytes each changes nothing (R518 to R526). A row
run by itself is the model's reading (log 8). -/
def Obligations.ModeRows : Prop :=
  ∀ s4 : Byte,
    WritesModeWhen (.modeNone s4) 0 ∧ WritesModeWhen (.modeDegF s4) 1 ∧ WritesModeWhen (.modeDegC s4) 2 ∧
    WritesModeWhen (.modeFarad s4) 3 ∧ WritesModeWhen (.modeHz s4) 4 ∧ WritesModeWhen (.modeHfe s4) 5 ∧
    WritesModeWhen (.modeOhm s4) 6 ∧ WritesModeWhen (.modeA s4) 7 ∧ WritesModeWhen (.modeV s4) 8

/-- Last-match-wins for the mode: an accepted frame's mode is one more than the highest set bit of byte 10, and none when byte 10 is 0
(R517). -/
def Obligations.AcceptedModeIsHighestBit : Prop :=
  ∀ (f : Frame) (s : State), PassesChecks f → ∃ t, exec (.decode 14 f) s = .next t ∧
    (frameByte f 10 = 0 → t.res.mode = 0) ∧
    ∀ n < 8, HighestBit (frameByte f 10) n → t.res.mode = BitVec.ofNat 4 (n + 1)

/-- The prefix of an accepted frame: n exactly when the resolved mode is F and bit 1 of byte 8 is set (R527); otherwise the highest set bit
among bits 4 to 7 of byte 9, in the order M, k, m, µ, and none when all four are clear (R511). -/
def Obligations.AcceptedPrefixAndNanoOverride : Prop :=
  ∀ (f : Frame) (s : State), PassesChecks f → ∃ t, exec (.decode 14 f) s = .next t ∧
    (t.res.pfx = 5 ↔ t.res.mode = 3 ∧ (frameByte f 8).getLsbD 1 = true) ∧
    (¬ (t.res.mode = 3 ∧ (frameByte f 8).getLsbD 1 = true) →
      (frameByte f 9 &&& 0xF0 = 0 → t.res.pfx = 0) ∧
      ∀ n, 4 ≤ n → n < 8 → HighestBit (frameByte f 9) n → t.res.pfx = BitVec.ofNat 3 (n - 3))

/-- The row UNIT completes and writes no field whenever both codes have a string; the unit string is the two strings joined with nothing
between them, and `trim` takes nothing away (R528). Every string of ROM.PREFIX_STR and ROM.MODE_STR has the spec's code points (R123, R124). The row UNIT
run by itself is the model's reading (log 8). -/
def Obligations.UnitStringIsConcatenation : Prop :=
  (∀ s : State, s.res.pfx.toNat < 6 → s.res.mode.toNat < 9 → exec .unit s = .next s) ∧
  (∀ (p : BitVec 3) (m : BitVec 4), p.toNat < 6 → m.toNat < 9 →
    ∃ a b, romPfxStr[p.toNat]? = some a ∧ romModeStr[m.toNat]? = some b ∧ unitText p m = .ok (a ++ b)) ∧
  (romPfxStr[0]? = some [] ∧ romPfxStr[1]? = some [0x4D] ∧ romPfxStr[2]? = some [0x6B] ∧ romPfxStr[3]? = some [0x6D] ∧
    romPfxStr[4]? = some [0xB5] ∧ romPfxStr[5]? = some [0x6E]) ∧
  (romModeStr[0]? = some [] ∧ romModeStr[1]? = some [0xB0, 0x46] ∧ romModeStr[2]? = some [0xB0, 0x43] ∧
    romModeStr[3]? = some [0x46] ∧ romModeStr[4]? = some [0x48, 0x7A] ∧ romModeStr[5]? = some [0x68, 0x46, 0x45] ∧
    romModeStr[6]? = some [0x3A9] ∧ romModeStr[7]? = some [0x41] ∧ romModeStr[8]? = some [0x56]) ∧
  unitText 2 8 = .ok [0x6B, 0x56] ∧ unitText 5 3 = .ok [0x6E, 0x46] ∧ unitText 1 6 = .ok [0x4D, 0x3A9] ∧
  unitText 4 2 = .ok [0xB5, 0xB0, 0x43] ∧ unitText 3 1 = .ok [0x6D, 0xB0, 0x46] ∧ unitText 1 4 = .ok [0x4D, 0x48, 0x7A] ∧
  unitText 2 5 = .ok [0x6B, 0x68, 0x46, 0x45] ∧ unitText 3 7 = .ok [0x6D, 0x41] ∧ unitText 0 0 = .ok []

/-- A code that no rule writes has no string: the row UNIT faults on it by name (D29, U11). Which of two such codes is reported is
the model's choice (log 9), and so is a row run by itself (log 8). -/
def Obligations.UnitRowFaultsOnUnwrittenCodes : Prop :=
  ∀ s : State,
    (6 ≤ s.res.pfx.toNat → exec .unit s = .fault .pfxCode) ∧
    (s.res.pfx.toNat < 6 → 9 ≤ s.res.mode.toNat → exec .unit s = .fault .modeCode)

/-! ### Reading the result -/

/-- R611: what a host reads from RES. `chr` of a SIGN_CHAR above 0x7F, which R10 does not define, is the model's free value (log 11). -/
def Obligations.MeasurementReadout : Prop :=
  ∀ r : Res,
    (r.valid = false → readResult r = .ok .noResult) ∧
    (r.valid = true → r.kind = 1 → readResult r = .ok .rejectedLength) ∧
    (r.valid = true → r.kind = 2 → readResult r = .ok .rejectedEncoding) ∧
    (r.valid = true → r.kind = 0 → ∀ unit, unitText r.pfx r.mode = .ok unit →
      readResult r = .ok (.measured
        { sign := if r.signEmpty then [] else [chr r.signChar]
          value := if r.valOl then .overflow else .number { mant := r.valMant.toNat, scale := r.valScale.toNat }
          unit := unit
          status := statusTags r.status }))

/-- Reading a result that no rule writes is a fault by name: KIND 3, PREFIX 6 or 7, MODE 9 to 15, a reserved bit of `res_word`
(D29, U10, U11, U12). Which of two such codes is reported is the model's choice (log 9). -/
def Obligations.ReadingUnwrittenCodesFaults : Prop :=
  (∀ r : Res, r.valid = true →
    (r.kind = 3 → readResult r = .error .kindCode) ∧
    (r.kind = 0 → 6 ≤ r.pfx.toNat → readResult r = .error .pfxCode) ∧
    (r.kind = 0 → r.pfx.toNat < 6 → 9 ≤ r.mode.toNat → readResult r = .error .modeCode)) ∧
  ∀ w : BitVec 64, w.extractLsb' 54 10 ≠ 0 → readResWord w = .error .reservedBits

/-- The layout of `res_word`: every field stands at its bit positions, and bits 63:54 read as zero (R103). -/
def Obligations.ResWordLayout : Prop :=
  ∀ r : Res,
    r.word.getLsbD 0 = r.valid ∧ r.word.extractLsb' 1 2 = r.kind ∧ r.word.getLsbD 3 = r.signEmpty ∧
    r.word.extractLsb' 4 8 = r.signChar ∧ r.word.getLsbD 12 = r.valOl ∧ r.word.extractLsb' 13 14 = r.valMant ∧
    r.word.extractLsb' 27 2 = r.valScale ∧ r.word.extractLsb' 29 3 = r.pfx ∧ r.word.extractLsb' 32 4 = r.mode ∧
    r.word.extractLsb' 36 10 = r.status ∧ r.word.extractLsb' 46 8 = r.barRaw ∧ r.word.extractLsb' 54 10 = 0 ∧
    Res.ofWord r.word = r ∧ readResWord r.word = readResult r

/-! ### Reset, invariants and runs -/

/-- After reset every field of RES has the reset value of R103, and a host reads no result. -/
def Obligations.ResetStateOfRes : Prop :=
  State.reset.res.valid = false ∧ State.reset.res.kind = 0 ∧ State.reset.res.signEmpty = false ∧
  State.reset.res.signChar = 0 ∧ State.reset.res.valOl = false ∧ State.reset.res.valMant = 0 ∧
  State.reset.res.valScale = 0 ∧ State.reset.res.pfx = 0 ∧ State.reset.res.mode = 0 ∧ State.reset.res.status = 0 ∧
  State.reset.res.barRaw = 0 ∧ State.reset.res.word = 0 ∧ readResult State.reset.res = .ok .noResult

/-- Every step keeps the invariant: from any state whose RES is legal and whose inputs meet setup and hold, the next state is such a state
(R103, R805, D29). -/
def Obligations.StepKeepsLegalRes : Prop :=
  ∀ s t : State, s.Inv → step s = .next t → t.Inv

/-- The state after reset meets the invariant. That the inputs meet setup and hold there is the model's choice (log 2). -/
def Obligations.ResetMeetsTheInvariant : Prop := State.reset.Inv

/-- From any contents of RES, power-up included, one RESET or DECODE edge whose inputs meet setup and hold makes RES legal: nothing else
needs to be initialised (R800, R802, R803). -/
def Obligations.FirstCommandMakesResLegal : Prop :=
  ∀ s : State, s.InputsStable → (s.ports.rst = true ∨ s.ports.start = true) → ∃ t, step s = .next t ∧ t.Inv

/-- In a state that meets the invariant a host's reading never meets a code that no rule writes (D29). -/
def Obligations.InvariantStatesAreReadable : Prop :=
  ∀ s : State, s.Inv → s.Readable

/-- R104: VALID is 0 after reset, every DECODE sets it to 1, accepted or rejected, and only RESET clears it; a host ignores every other
field while it is 0. The edges are those that meet setup and hold, as R805 asks of the host (log 12). -/
def Obligations.ValidFlagLife : Prop :=
  State.reset.res.valid = false ∧
  (∀ s : State, s.ports.stable = true → ∃ t, step s = .next t ∧
    (s.ports.rst = true → t.res.valid = false) ∧
    (s.ports.rst = false → s.ports.start = true → t.res.valid = true) ∧
    (s.ports.rst = false → s.ports.start = false → t.res.valid = s.res.valid)) ∧
  ∀ r r' : Res, r.valid = false → r'.valid = false → readResult r = readResult r'

/-- After any presentations, well timed or not, and then a well-timed DECODE, RES is the result of that DECODE alone: each transaction
replaces the whole of RES, and no history survives (R208, R126). -/
def Obligations.LastTransactionDecidesRes : Prop :=
  ∀ (s : State) (es : List Edge) (e : Edge), s.script = es ++ [e] → e.stable = true → e.rst = false → e.start = true →
    ∃ t u, core.run (es.length + 2) s = .next t ∧ exec (.decode e.inLen e.inFrame) State.reset = .next u ∧ t.res = u.res

/-- At an edge that violates setup or hold, RES takes the model's free value, whatever it is, and the host moves on (R805, U9). The form of
the free value and its index are the model's (log 4), and so is that this covers edges that select RESET or IDLE (log 12). What the ports
hold after the script is log 1's choice. -/
def Obligations.UnstableEdgeLeavesAnyValue : Prop :=
  ∀ s : State, s.ports.stable = false →
    ∃ t, step s = .next t ∧ t.res = Res.ofWord (Config.unstableRes s.freeIndex) ∧ t.freeIndex = s.freeIndex + 1 ∧
      (s.script = [] → t.ports = s.ports ∧ t.script = []) ∧
      ∀ e es, s.script = e :: es → t.ports = e ∧ t.script = es

/-- The row BAR_RAW writes BAR_RAW with its byte, and nothing else (R610). A row run by itself is the model's reading (log 8). -/
def Obligations.BarRowWritesItsByte : Prop :=
  ∀ (b : Byte) (s : State), exec (.barRaw b) s = .next (s.withRes { s.res with barRaw := b })
end

