-- ==== Sys2Proof/Laws/Decode.lean ====
section
/-! SUPPORT. The small lemmas of the decoder: the checks as comparisons, and when the decode map stops at each step. -/

namespace Sys2Proof

theorem isChar_iff (b : Byte) : isChar b = true ↔ b ≤ 0x7F := decide_eq_true_iff

theorem isDigit_iff (b : Byte) : isDigit b = true ↔ inDigitRange b := by simp [isDigit, inDigitRange]

theorem isOverflow_iff (f1 f2 f3 f4 : Byte) : isOverflow f1 f2 f3 f4 = true ↔ isOverflowBytes f1 f2 f3 f4 := by
  simp [isOverflow, isOverflowBytes, and_assoc]

theorem areDigits_iff (f1 f2 f3 f4 : Byte) :
    areDigits f1 f2 f3 f4 = true ↔ inDigitRange f1 ∧ inDigitRange f2 ∧ inDigitRange f3 ∧ inDigitRange f4 := by
  simp [areDigits, isDigit_iff, and_assoc]

/-- The two legal contents of the digit field exclude each other (R304). -/
theorem overflow_not_digits {f1 f2 f3 f4 : Byte} (h : isOverflow f1 f2 f3 f4 = true) : areDigits f1 f2 f3 f4 = false := by
  obtain ⟨rfl, rfl, rfl, rfl⟩ := (isOverflow_iff ..).1 h
  decide

/-- The control word of an edge, bit by bit (R301). -/
theorem decodeEdge_eq (e : Edge) :
    decodeEdge e = if e.rst then .reset e.start else if e.start then .decode e.inLen e.inFrame else .idle := by
  obtain ⟨r, st, len, f, ok⟩ := e
  cases r <;> cases st <;> simp [decodeEdge, decodeCommand, ctrlWord]

end Sys2Proof
end

