-- ==== Sys2Proof/Laws/State.lean ====
section
/-! SUPPORT. One lemma per field per update of State and Res, each true by rfl, so that no proof unfolds a record update. -/

namespace Sys2Proof.Machine

variable (s : State) (r : Res)

@[simp] theorem State.withRes_res : (s.withRes r).res = r := rfl
@[simp] theorem State.withRes_ports : (s.withRes r).ports = s.ports := rfl
@[simp] theorem State.withRes_script : (s.withRes r).script = s.script := rfl
@[simp] theorem State.withRes_freeIndex : (s.withRes r).freeIndex = s.freeIndex := rfl
@[simp] theorem State.withRes_withRes (r' : Res) : (s.withRes r).withRes r' = s.withRes r' := rfl
@[simp] theorem State.withRes_self : s.withRes s.res = s := rfl

@[simp] theorem State.unstableEdge_res : s.unstableEdge.res = Res.ofWord (Config.unstableRes s.freeIndex) := rfl
@[simp] theorem State.unstableEdge_ports : s.unstableEdge.ports = s.ports := rfl
@[simp] theorem State.unstableEdge_script : s.unstableEdge.script = s.script := rfl
@[simp] theorem State.unstableEdge_freeIndex : s.unstableEdge.freeIndex = s.freeIndex + 1 := rfl

@[simp] theorem State.reset_res : State.reset.res = Res.cleared := rfl
@[simp] theorem State.reset_ports : State.reset.ports = restingPorts := rfl
@[simp] theorem State.reset_script : State.reset.script = [] := rfl
@[simp] theorem State.powerUp_res : State.powerUp.res = Res.ofWord Config.powerUpRes := rfl

@[simp] theorem Res.cleared_valid : Res.cleared.valid = false := rfl
@[simp] theorem Res.cleared_kind : Res.cleared.kind = 0 := rfl
@[simp] theorem Res.cleared_signEmpty : Res.cleared.signEmpty = false := rfl
@[simp] theorem Res.cleared_signChar : Res.cleared.signChar = 0 := rfl
@[simp] theorem Res.cleared_valOl : Res.cleared.valOl = false := rfl
@[simp] theorem Res.cleared_valMant : Res.cleared.valMant = 0 := rfl
@[simp] theorem Res.cleared_valScale : Res.cleared.valScale = 0 := rfl
@[simp] theorem Res.cleared_pfx : Res.cleared.pfx = 0 := rfl
@[simp] theorem Res.cleared_mode : Res.cleared.mode = 0 := rfl
@[simp] theorem Res.cleared_status : Res.cleared.status = 0 := rfl
@[simp] theorem Res.cleared_barRaw : Res.cleared.barRaw = 0 := rfl

@[simp] theorem rejectedRes_valid (k : BitVec 2) : (rejectedRes k).valid = true := rfl
@[simp] theorem rejectedRes_kind (k : BitVec 2) : (rejectedRes k).kind = k := rfl
@[simp] theorem rejectedRes_signEmpty (k : BitVec 2) : (rejectedRes k).signEmpty = false := rfl
@[simp] theorem rejectedRes_signChar (k : BitVec 2) : (rejectedRes k).signChar = 0 := rfl
@[simp] theorem rejectedRes_valOl (k : BitVec 2) : (rejectedRes k).valOl = false := rfl
@[simp] theorem rejectedRes_valMant (k : BitVec 2) : (rejectedRes k).valMant = 0 := rfl
@[simp] theorem rejectedRes_valScale (k : BitVec 2) : (rejectedRes k).valScale = 0 := rfl
@[simp] theorem rejectedRes_pfx (k : BitVec 2) : (rejectedRes k).pfx = 0 := rfl
@[simp] theorem rejectedRes_mode (k : BitVec 2) : (rejectedRes k).mode = 0 := rfl
@[simp] theorem rejectedRes_status (k : BitVec 2) : (rejectedRes k).status = 0 := rfl
@[simp] theorem rejectedRes_barRaw (k : BitVec 2) : (rejectedRes k).barRaw = 0 := rfl

@[simp] theorem Res.writeSign_valid (e : Bool) (c : Byte) : (r.writeSign e c).valid = r.valid := rfl
@[simp] theorem Res.writeSign_kind (e : Bool) (c : Byte) : (r.writeSign e c).kind = r.kind := rfl
@[simp] theorem Res.writeSign_signEmpty (e : Bool) (c : Byte) : (r.writeSign e c).signEmpty = e := rfl
@[simp] theorem Res.writeSign_signChar (e : Bool) (c : Byte) : (r.writeSign e c).signChar = c := rfl
@[simp] theorem Res.writeSign_valOl (e : Bool) (c : Byte) : (r.writeSign e c).valOl = r.valOl := rfl
@[simp] theorem Res.writeSign_valMant (e : Bool) (c : Byte) : (r.writeSign e c).valMant = r.valMant := rfl
@[simp] theorem Res.writeSign_valScale (e : Bool) (c : Byte) : (r.writeSign e c).valScale = r.valScale := rfl
@[simp] theorem Res.writeSign_pfx (e : Bool) (c : Byte) : (r.writeSign e c).pfx = r.pfx := rfl
@[simp] theorem Res.writeSign_mode (e : Bool) (c : Byte) : (r.writeSign e c).mode = r.mode := rfl
@[simp] theorem Res.writeSign_status (e : Bool) (c : Byte) : (r.writeSign e c).status = r.status := rfl
@[simp] theorem Res.writeSign_barRaw (e : Bool) (c : Byte) : (r.writeSign e c).barRaw = r.barRaw := rfl

@[simp] theorem Res.writeOverflow_valid : (r.writeOverflow).valid = r.valid := rfl
@[simp] theorem Res.writeOverflow_kind : (r.writeOverflow).kind = r.kind := rfl
@[simp] theorem Res.writeOverflow_signEmpty : (r.writeOverflow).signEmpty = r.signEmpty := rfl
@[simp] theorem Res.writeOverflow_signChar : (r.writeOverflow).signChar = r.signChar := rfl
@[simp] theorem Res.writeOverflow_valOl : (r.writeOverflow).valOl = true := rfl
@[simp] theorem Res.writeOverflow_valMant : (r.writeOverflow).valMant = 0 := rfl
@[simp] theorem Res.writeOverflow_valScale : (r.writeOverflow).valScale = 0 := rfl
@[simp] theorem Res.writeOverflow_pfx : (r.writeOverflow).pfx = r.pfx := rfl
@[simp] theorem Res.writeOverflow_mode : (r.writeOverflow).mode = r.mode := rfl
@[simp] theorem Res.writeOverflow_status : (r.writeOverflow).status = r.status := rfl
@[simp] theorem Res.writeOverflow_barRaw : (r.writeOverflow).barRaw = r.barRaw := rfl

@[simp] theorem Res.writeMant_valid (m : BitVec 14) : (r.writeMant m).valid = r.valid := rfl
@[simp] theorem Res.writeMant_kind (m : BitVec 14) : (r.writeMant m).kind = r.kind := rfl
@[simp] theorem Res.writeMant_signEmpty (m : BitVec 14) : (r.writeMant m).signEmpty = r.signEmpty := rfl
@[simp] theorem Res.writeMant_signChar (m : BitVec 14) : (r.writeMant m).signChar = r.signChar := rfl
@[simp] theorem Res.writeMant_valOl (m : BitVec 14) : (r.writeMant m).valOl = false := rfl
@[simp] theorem Res.writeMant_valMant (m : BitVec 14) : (r.writeMant m).valMant = m := rfl
@[simp] theorem Res.writeMant_valScale (m : BitVec 14) : (r.writeMant m).valScale = r.valScale := rfl
@[simp] theorem Res.writeMant_pfx (m : BitVec 14) : (r.writeMant m).pfx = r.pfx := rfl
@[simp] theorem Res.writeMant_mode (m : BitVec 14) : (r.writeMant m).mode = r.mode := rfl
@[simp] theorem Res.writeMant_status (m : BitVec 14) : (r.writeMant m).status = r.status := rfl
@[simp] theorem Res.writeMant_barRaw (m : BitVec 14) : (r.writeMant m).barRaw = r.barRaw := rfl

@[simp] theorem Res.writeScale_valid (c : BitVec 2) : (r.writeScale c).valid = r.valid := rfl
@[simp] theorem Res.writeScale_kind (c : BitVec 2) : (r.writeScale c).kind = r.kind := rfl
@[simp] theorem Res.writeScale_signEmpty (c : BitVec 2) : (r.writeScale c).signEmpty = r.signEmpty := rfl
@[simp] theorem Res.writeScale_signChar (c : BitVec 2) : (r.writeScale c).signChar = r.signChar := rfl
@[simp] theorem Res.writeScale_valOl (c : BitVec 2) : (r.writeScale c).valOl = r.valOl := rfl
@[simp] theorem Res.writeScale_valMant (c : BitVec 2) : (r.writeScale c).valMant = r.valMant := rfl
@[simp] theorem Res.writeScale_valScale (c : BitVec 2) : (r.writeScale c).valScale = c := rfl
@[simp] theorem Res.writeScale_pfx (c : BitVec 2) : (r.writeScale c).pfx = r.pfx := rfl
@[simp] theorem Res.writeScale_mode (c : BitVec 2) : (r.writeScale c).mode = r.mode := rfl
@[simp] theorem Res.writeScale_status (c : BitVec 2) : (r.writeScale c).status = r.status := rfl
@[simp] theorem Res.writeScale_barRaw (c : BitVec 2) : (r.writeScale c).barRaw = r.barRaw := rfl

@[simp] theorem Res.writePfx_valid (c : BitVec 3) : (r.writePfx c).valid = r.valid := rfl
@[simp] theorem Res.writePfx_kind (c : BitVec 3) : (r.writePfx c).kind = r.kind := rfl
@[simp] theorem Res.writePfx_signEmpty (c : BitVec 3) : (r.writePfx c).signEmpty = r.signEmpty := rfl
@[simp] theorem Res.writePfx_signChar (c : BitVec 3) : (r.writePfx c).signChar = r.signChar := rfl
@[simp] theorem Res.writePfx_valOl (c : BitVec 3) : (r.writePfx c).valOl = r.valOl := rfl
@[simp] theorem Res.writePfx_valMant (c : BitVec 3) : (r.writePfx c).valMant = r.valMant := rfl
@[simp] theorem Res.writePfx_valScale (c : BitVec 3) : (r.writePfx c).valScale = r.valScale := rfl
@[simp] theorem Res.writePfx_pfx (c : BitVec 3) : (r.writePfx c).pfx = c := rfl
@[simp] theorem Res.writePfx_mode (c : BitVec 3) : (r.writePfx c).mode = r.mode := rfl
@[simp] theorem Res.writePfx_status (c : BitVec 3) : (r.writePfx c).status = r.status := rfl
@[simp] theorem Res.writePfx_barRaw (c : BitVec 3) : (r.writePfx c).barRaw = r.barRaw := rfl

@[simp] theorem Res.writeMode_valid (c : BitVec 4) : (r.writeMode c).valid = r.valid := rfl
@[simp] theorem Res.writeMode_kind (c : BitVec 4) : (r.writeMode c).kind = r.kind := rfl
@[simp] theorem Res.writeMode_signEmpty (c : BitVec 4) : (r.writeMode c).signEmpty = r.signEmpty := rfl
@[simp] theorem Res.writeMode_signChar (c : BitVec 4) : (r.writeMode c).signChar = r.signChar := rfl
@[simp] theorem Res.writeMode_valOl (c : BitVec 4) : (r.writeMode c).valOl = r.valOl := rfl
@[simp] theorem Res.writeMode_valMant (c : BitVec 4) : (r.writeMode c).valMant = r.valMant := rfl
@[simp] theorem Res.writeMode_valScale (c : BitVec 4) : (r.writeMode c).valScale = r.valScale := rfl
@[simp] theorem Res.writeMode_pfx (c : BitVec 4) : (r.writeMode c).pfx = r.pfx := rfl
@[simp] theorem Res.writeMode_mode (c : BitVec 4) : (r.writeMode c).mode = c := rfl
@[simp] theorem Res.writeMode_status (c : BitVec 4) : (r.writeMode c).status = r.status := rfl
@[simp] theorem Res.writeMode_barRaw (c : BitVec 4) : (r.writeMode c).barRaw = r.barRaw := rfl

@[simp] theorem Res.writeStatus_valid (x : BitVec 10) : (r.writeStatus x).valid = r.valid := rfl
@[simp] theorem Res.writeStatus_kind (x : BitVec 10) : (r.writeStatus x).kind = r.kind := rfl
@[simp] theorem Res.writeStatus_signEmpty (x : BitVec 10) : (r.writeStatus x).signEmpty = r.signEmpty := rfl
@[simp] theorem Res.writeStatus_signChar (x : BitVec 10) : (r.writeStatus x).signChar = r.signChar := rfl
@[simp] theorem Res.writeStatus_valOl (x : BitVec 10) : (r.writeStatus x).valOl = r.valOl := rfl
@[simp] theorem Res.writeStatus_valMant (x : BitVec 10) : (r.writeStatus x).valMant = r.valMant := rfl
@[simp] theorem Res.writeStatus_valScale (x : BitVec 10) : (r.writeStatus x).valScale = r.valScale := rfl
@[simp] theorem Res.writeStatus_pfx (x : BitVec 10) : (r.writeStatus x).pfx = r.pfx := rfl
@[simp] theorem Res.writeStatus_mode (x : BitVec 10) : (r.writeStatus x).mode = r.mode := rfl
@[simp] theorem Res.writeStatus_status (x : BitVec 10) : (r.writeStatus x).status = x := rfl
@[simp] theorem Res.writeStatus_barRaw (x : BitVec 10) : (r.writeStatus x).barRaw = r.barRaw := rfl

@[simp] theorem Res.writeBar_valid (b : Byte) : (r.writeBar b).valid = r.valid := rfl
@[simp] theorem Res.writeBar_kind (b : Byte) : (r.writeBar b).kind = r.kind := rfl
@[simp] theorem Res.writeBar_signEmpty (b : Byte) : (r.writeBar b).signEmpty = r.signEmpty := rfl
@[simp] theorem Res.writeBar_signChar (b : Byte) : (r.writeBar b).signChar = r.signChar := rfl
@[simp] theorem Res.writeBar_valOl (b : Byte) : (r.writeBar b).valOl = r.valOl := rfl
@[simp] theorem Res.writeBar_valMant (b : Byte) : (r.writeBar b).valMant = r.valMant := rfl
@[simp] theorem Res.writeBar_valScale (b : Byte) : (r.writeBar b).valScale = r.valScale := rfl
@[simp] theorem Res.writeBar_pfx (b : Byte) : (r.writeBar b).pfx = r.pfx := rfl
@[simp] theorem Res.writeBar_mode (b : Byte) : (r.writeBar b).mode = r.mode := rfl
@[simp] theorem Res.writeBar_status (b : Byte) : (r.writeBar b).status = r.status := rfl
@[simp] theorem Res.writeBar_barRaw (b : Byte) : (r.writeBar b).barRaw = b := rfl

end Sys2Proof.Machine
end

