-- ==== Sys2Proof/Laws/Ops.lean ====
section
/-! SUPPORT. What each shared operation can do, said once: the exception, the accept, the conditional write, the edge. -/

namespace Sys2Proof.Machine

/-- Rejecting always answers a next state that differs in RES alone (R701). -/
theorem raiseReject_eq (k : BitVec 2) (s : State) : raiseReject k s = .next (s.withRes (rejectedRes k)) := rfl

/-- A conditional write answers a next state: the write when the condition holds, the same state when it does not. -/
theorem writeIf_true (g : Res → Res) (s : State) : writeIf true g s = .next (s.withRes (g s.res)) := rfl

theorem writeIf_false (g : Res → Res) (s : State) : writeIf false g s = .next s := rfl

/-- A conditional write changes RES alone. -/
theorem writeIf_next {c : Bool} {g : Res → Res} {s t : State} (h : writeIf c g s = .next t) :
    t = s.withRes (if c then g s.res else s.res) := by
  cases c <;> simp_all [writeIf]

/-- When the script is over the levels stay (log 1). -/
theorem State.advance_nil {s : State} (h : s.script = []) : s.advance = s := by
  simp [State.advance, h]

/-- The host presents the next levels of its script. -/
theorem State.advance_cons {s : State} {e : Edge} {es : List Edge} (h : s.script = e :: es) :
    s.advance = { s with ports := e, script := es } := by
  simp [State.advance, h]

@[simp] theorem State.advance_res (s : State) : s.advance.res = s.res := by
  unfold State.advance; split <;> rfl

@[simp] theorem State.advance_freeIndex (s : State) : s.advance.freeIndex = s.freeIndex := by
  unfold State.advance; split <;> rfl

/-- Advancing the host's script and replacing RES do not meet. -/
theorem State.advance_withRes (s : State) (r : Res) : (s.withRes r).advance = s.advance.withRes r := by
  cases s with
  | mk res ports script freeIndex => cases script <;> rfl

/-- What every command does: it answers a next state that differs in RES alone (R205, R804). -/
theorem exec_decodeEdge_next (e : Edge) (s : State) : ∃ r, exec (decodeEdge e) s = .next (s.withRes r) := by
  unfold decodeEdge decodeCommand
  split
  · exact ⟨_, rfl⟩
  · split
    · simp only [exec, execDecode]
      split
      · exact ⟨_, rfl⟩
      · split
        · exact ⟨_, rfl⟩
        · split
          · exact ⟨_, rfl⟩
          · split <;> exact ⟨_, rfl⟩
    · exact ⟨s.res, rfl⟩

/-- What a step does: at a well-timed edge the decoded command's new RES, at another the free value; then the host moves on. -/
theorem step_next (s : State) :
    (s.ports.stable = true ∧ ∃ r, exec (decodeEdge s.ports) s = .next (s.withRes r) ∧ step s = .next (s.withRes r).advance) ∨
    (s.ports.stable = false ∧ step s = .next s.unstableEdge.advance) := by
  cases h : s.ports.stable with
  | true =>
    obtain ⟨r, hr⟩ := exec_decodeEdge_next s.ports s
    exact .inl ⟨rfl, r, hr, by simp [step, h, hr]⟩
  | false => exact .inr ⟨rfl, by simp [step, h]⟩

end Sys2Proof.Machine
end

