-- ==== Sys2Proof/Laws/DecodeResult.lean ====
section
/-! SUPPORT. What DECODE writes, as a function of its inputs: the one lemma to cite instead of unfolding its meaning. -/

namespace Sys2Proof.Machine

/-- The fields that every accepted frame writes, and the ones its class decides (R407). -/
def acceptedRes (empty : Bool) (char : Byte) (ol : Bool) (mant : BitVec 14) (scale : BitVec 2) (f : Frame) : Res :=
  { valid := true, kind := 0, signEmpty := empty, signChar := char, valOl := ol, valMant := mant, valScale := scale
    pfx := nanoOverride (pfxDecode (frameByte f 9)) (modeDecode (frameByte f 10)) (frameByte f 8)
    mode := modeDecode (frameByte f 10)
    status := statusDecode (frameByte f 7) (frameByte f 8)
    barRaw := frameByte f 11 }

/-- The RES that a DECODE writes, by the class of its frame. -/
def decodedRes (len : Byte) (f : Frame) : Res :=
  match classify len f with
  | .rejLen => rejectedRes 1
  | .rejSign => rejectedRes 2
  | .rejDp => rejectedRes 2
  | .rejDigit => rejectedRes 2
  | .overflow => acceptedRes true 0 true 0 0 f
  | .numeric => acceptedRes false (frameByte f 0) false
      (BitVec.ofNat 14 (mantissa (frameByte f 1) (frameByte f 2) (frameByte f 3) (frameByte f 4)))
      (BitVec.ofNat 2 (scaleOf (decpos (frameByte f 6)))) f

/-- DECODE answers a next state, writes exactly this RES and changes nothing else (R400). -/
theorem exec_decode_eq (len : Byte) (f : Frame) (s : State) :
    exec (.decode len f) s = .next (s.withRes (decodedRes len f)) := by
  simp only [exec, execDecode, decodedRes, classify]
  by_cases hl : len = 14#8
  · by_cases h0 : isChar (frameByte f 0)
    · by_cases h6 : isDigit (frameByte f 6)
      · by_cases ho : isOverflow (frameByte f 1) (frameByte f 2) (frameByte f 3) (frameByte f 4)
        · simp [hl, h0, h6, ho, accept, acceptedRes, signOf, valueOf, kindOk, Config.frameBytes]
        · by_cases hd : areDigits (frameByte f 1) (frameByte f 2) (frameByte f 3) (frameByte f 4)
          · simp [hl, h0, h6, ho, hd, accept, acceptedRes, signOf, valueOf, kindOk, Config.frameBytes]
          · simp [hl, h0, h6, ho, hd, raiseReject, kindInvalidEncoding, Config.frameBytes]
      · simp [hl, h0, h6, raiseReject, kindInvalidEncoding, Config.frameBytes]
    · simp [hl, h0, raiseReject, kindInvalidEncoding, Config.frameBytes]
  · simp [hl, raiseReject, kindInvalidLength, Config.frameBytes]

end Sys2Proof.Machine
end

