-- ==== Sys2Proof/Laws/PerInstr.lean ====
section
/-! SUPPORT. Statements about every instruction, one lemma per constructor. -/

namespace Sys2Proof.Laws.TableBytes

/-- The bytes that encode a well-formed row meet the byte tests of its row in opcode_table.json. -/
def Statement (i : Instr) : Prop :=
  i.WellFormed → ∀ len bytes, encode i = .row len bytes →
    ∀ p ∈ tableBytes i, ∀ q ∈ bytes, q.1 = p.1 → q.2 &&& p.2.1 = p.2.2

theorem reset (start : Bool) : Statement (.reset start) := by
  simp +contextual [Statement, encode, tableBytes, Instr.WellFormed]

theorem decode (len : Byte) (frame : Frame) : Statement (.decode len frame) := by
  simp +contextual [Statement, encode, tableBytes, Instr.WellFormed]

theorem idle : Statement .idle := by
  simp +contextual [Statement, encode, tableBytes, Instr.WellFormed]

theorem rejLen (len : Byte) : Statement (.rejLen len) := by
  simp +contextual [Statement, encode, tableBytes, Instr.WellFormed]

theorem rejEncSign (f0 : Byte) : Statement (.rejEncSign f0) := by
  simp +contextual [Statement, encode, tableBytes, Instr.WellFormed]

theorem rejEncDp (f6 : Byte) : Statement (.rejEncDp f6) := by
  simp +contextual [Statement, encode, tableBytes, Instr.WellFormed]

theorem rejEncDigit (f1 f2 f3 f4 : Byte) : Statement (.rejEncDigit f1 f2 f3 f4) := by
  simp +contextual [Statement, encode, tableBytes, Instr.WellFormed]

theorem valOl (f1 f2 f3 f4 : Byte) : Statement (.valOl f1 f2 f3 f4) := by
  rintro ⟨rfl, rfl, rfl, rfl⟩ len bytes h
  obtain ⟨rfl, rfl⟩ : 14 = len ∧ _ = bytes := by simpa [encode] using h
  intro p hp q hq e
  simp only [tableBytes, List.mem_cons, List.not_mem_nil, or_false] at hp hq
  rcases hp with rfl | rfl | rfl | rfl <;> rcases hq with rfl | rfl | rfl | rfl <;> first | rfl | simp at e

theorem signEmpty (f1 f2 f3 f4 : Byte) : Statement (.signEmpty f1 f2 f3 f4) := by
  rintro ⟨rfl, rfl, rfl, rfl⟩ len bytes h
  obtain ⟨rfl, rfl⟩ : 14 = len ∧ _ = bytes := by simpa [encode] using h
  intro p hp q hq e
  simp only [tableBytes, List.mem_cons, List.not_mem_nil, or_false] at hp hq
  rcases hp with rfl | rfl | rfl | rfl <;> rcases hq with rfl | rfl | rfl | rfl <;> first | rfl | simp at e

theorem signVerbatim (f0 f1 f2 f3 f4 : Byte) : Statement (.signVerbatim f0 f1 f2 f3 f4) := by
  rintro ⟨h0, -⟩ len bytes h p hp q hq e
  obtain ⟨rfl, rfl⟩ : 14 = len ∧ _ = bytes := by simpa [encode] using h
  obtain rfl : p = (0, 0x80, 0x00) := by simpa [tableBytes] using hp
  simp only [List.mem_cons, List.not_mem_nil, or_false] at hq
  rcases hq with rfl | rfl | rfl | rfl | rfl <;> first | exact h0 | simp at e

theorem valNum (f1 f2 f3 f4 : Byte) : Statement (.valNum f1 f2 f3 f4) := by
  simp +contextual [Statement, encode, tableBytes, Instr.WellFormed]

theorem dpNone (f6 : Byte) : Statement (.dpNone f6) := by
  simp +contextual [Statement, encode, tableBytes, Instr.WellFormed]

theorem dp1 (f6 : Byte) : Statement (.dp1 f6) := by
  simp +contextual [Statement, encode, tableBytes, Instr.WellFormed]

theorem dp2 (f6 : Byte) : Statement (.dp2 f6) := by
  simp +contextual [Statement, encode, tableBytes, Instr.WellFormed]

theorem dp3Plus (f6 : Byte) : Statement (.dp3Plus f6) := by
  simp +contextual [Statement, encode, tableBytes, Instr.WellFormed]

theorem flagBpn (s1 : Byte) : Statement (.flagBpn s1) := by
  simp +contextual [Statement, encode, tableBytes, Instr.WellFormed]

theorem flagHold (s1 : Byte) : Statement (.flagHold s1) := by
  simp +contextual [Statement, encode, tableBytes, Instr.WellFormed]

theorem flagRel (s1 : Byte) : Statement (.flagRel s1) := by
  simp +contextual [Statement, encode, tableBytes, Instr.WellFormed]

theorem flagAc (s1 : Byte) : Statement (.flagAc s1) := by
  simp +contextual [Statement, encode, tableBytes, Instr.WellFormed]

theorem flagDc (s1 : Byte) : Statement (.flagDc s1) := by
  simp +contextual [Statement, encode, tableBytes, Instr.WellFormed]

theorem flagAuto (s1 : Byte) : Statement (.flagAuto s1) := by
  simp +contextual [Statement, encode, tableBytes, Instr.WellFormed]

theorem flagBatt (s2 : Byte) : Statement (.flagBatt s2) := by
  simp +contextual [Statement, encode, tableBytes, Instr.WellFormed]

theorem flagApo (s2 : Byte) : Statement (.flagApo s2) := by
  simp +contextual [Statement, encode, tableBytes, Instr.WellFormed]

theorem flagMin (s2 : Byte) : Statement (.flagMin s2) := by
  simp +contextual [Statement, encode, tableBytes, Instr.WellFormed]

theorem flagMax (s2 : Byte) : Statement (.flagMax s2) := by
  simp +contextual [Statement, encode, tableBytes, Instr.WellFormed]

theorem pfxNone (s3 : Byte) : Statement (.pfxNone s3) := by
  simp +contextual [Statement, encode, tableBytes, Instr.WellFormed]

theorem pfxM (s3 : Byte) : Statement (.pfxM s3) := by
  simp +contextual [Statement, encode, tableBytes, Instr.WellFormed]

theorem pfxKilo (s3 : Byte) : Statement (.pfxKilo s3) := by
  simp +contextual [Statement, encode, tableBytes, Instr.WellFormed]

theorem pfxMilli (s3 : Byte) : Statement (.pfxMilli s3) := by
  simp +contextual [Statement, encode, tableBytes, Instr.WellFormed]

theorem pfxMicro (s3 : Byte) : Statement (.pfxMicro s3) := by
  simp +contextual [Statement, encode, tableBytes, Instr.WellFormed]

theorem pfxNano (s2 s4 : Byte) : Statement (.pfxNano s2 s4) := by
  rintro ⟨h8, h10⟩ len bytes h p hp q hq e
  obtain ⟨rfl, rfl⟩ : 14 = len ∧ _ = bytes := by simpa [encode] using h
  simp only [tableBytes, List.mem_cons, List.not_mem_nil, or_false] at hp hq
  rcases hp with rfl | rfl <;> rcases hq with rfl | rfl <;>
    first | exact h8 | exact h10 | simp at e

theorem modeNone (s4 : Byte) : Statement (.modeNone s4) := by
  simp +contextual [Statement, encode, tableBytes, Instr.WellFormed]

theorem modeDegF (s4 : Byte) : Statement (.modeDegF s4) := by
  simp +contextual [Statement, encode, tableBytes, Instr.WellFormed]

theorem modeDegC (s4 : Byte) : Statement (.modeDegC s4) := by
  simp +contextual [Statement, encode, tableBytes, Instr.WellFormed]

theorem modeFarad (s4 : Byte) : Statement (.modeFarad s4) := by
  simp +contextual [Statement, encode, tableBytes, Instr.WellFormed]

theorem modeHz (s4 : Byte) : Statement (.modeHz s4) := by
  simp +contextual [Statement, encode, tableBytes, Instr.WellFormed]

theorem modeHfe (s4 : Byte) : Statement (.modeHfe s4) := by
  simp +contextual [Statement, encode, tableBytes, Instr.WellFormed]

theorem modeOhm (s4 : Byte) : Statement (.modeOhm s4) := by
  simp +contextual [Statement, encode, tableBytes, Instr.WellFormed]

theorem modeA (s4 : Byte) : Statement (.modeA s4) := by
  simp +contextual [Statement, encode, tableBytes, Instr.WellFormed]

theorem modeV (s4 : Byte) : Statement (.modeV s4) := by
  simp +contextual [Statement, encode, tableBytes, Instr.WellFormed]

theorem unit : Statement .unit := by
  simp +contextual [Statement, encode, tableBytes, Instr.WellFormed]

theorem barRaw (f11 : Byte) : Statement (.barRaw f11) := by
  simp +contextual [Statement, encode, tableBytes, Instr.WellFormed]

end Sys2Proof.Laws.TableBytes
end

