-- ==== Sys2Proof/Laws/Values.lean ====
section
/-! SUPPORT. The bounds of the operands and codes that the rules compute, and what writing one flag does bit by bit. -/

namespace Sys2Proof.Machine

/-- A digit character stands for a value of at most 9 (R313). -/
theorem digitValue_le {b : Byte} (h : inDigitRange b) : digitValue b ≤ 9 := by
  revert b; decide

/-- Four digit characters make a mantissa of at most 9999 (R109, R603). -/
theorem mantissa_le {f1 f2 f3 f4 : Byte} (h1 : inDigitRange f1) (h2 : inDigitRange f2) (h3 : inDigitRange f3)
    (h4 : inDigitRange f4) : mantissa f1 f2 f3 f4 ≤ 9999 := by
  have := digitValue_le h1
  have := digitValue_le h2
  have := digitValue_le h3
  have := digitValue_le h4
  simp only [mantissa]
  omega

/-- The mode decoder gives a code that has a string (R112). -/
theorem modeDecode_lt (s4 : Byte) : (modeDecode s4).toNat < 9 := by
  revert s4; decide

/-- The prefix decoder gives none, M, k, m or µ: never n (R511). -/
theorem pfxDecode_lt (s3 : Byte) : (pfxDecode s3).toNat < 5 := by
  revert s3; decide

/-- Over a decoded prefix the override gives a code that has a string (R111). -/
theorem nanoOverride_lt {p : BitVec 3} (m : BitVec 4) (s2 : Byte) (h : p.toNat < 5) : (nanoOverride p m s2).toNat < 6 := by
  unfold nanoOverride
  split
  · decide
  · omega

/-- Over a decoded prefix the result is n exactly when the override fires (R527). -/
theorem nanoOverride_eq_nano {p : BitVec 3} (m : BitVec 4) (s2 : Byte) (h : p.toNat < 5) :
    nanoOverride p m s2 = 5 ↔ m = 3 ∧ s2.getLsbD 1 = true := by
  have bit : s2 &&& nanoMask ≠ 0 ↔ s2.getLsbD 1 = true := by revert s2; decide
  unfold nanoOverride
  simp only [bit]
  split
  · rename_i fires
    exact ⟨fun _ => fires, fun _ => rfl⟩
  · rename_i idle
    constructor
    · rintro rfl
      exact absurd h (by decide)
    · exact fun fires => absurd fires idle

/-- Writing flag `i` sets bit `i` to the value written and leaves the other nine (R501 to R510). -/
theorem writeFlag_getLsbD (status : BitVec 10) (i : Nat) (b : Bool) {j : Nat} (hj : j < 10) :
    (writeFlag status i b).getLsbD j = if j = i then b else status.getLsbD j := by
  unfold writeFlag
  by_cases h : j = i
  · subst h
    cases b <;> simp [hj]
  · by_cases below : j < i
    · cases b <;> simp [h, hj, below]
    · have apart : ¬ j - i = 0 := by omega
      cases b <;> simp [h, hj, below, apart]

/-- A character code reads as itself (R10). -/
theorem chr_of_le {b : Byte} (h : b ≤ Config.charMax) : chr b = b.toNat := if_pos h

@[simp] theorem signText_empty {r : Res} (h : r.signEmpty = true) : signText r = [] := by simp [signText, h]

/-- The sign of a result that is no overflow (R107). -/
theorem signText_char {r : Res} (h : r.signEmpty = false) : signText r = [chr r.signChar] := by simp [signText, h]

end Sys2Proof.Machine
end

