-- ==== Sys2Proof/Tests/Slice0.lean ====
section
/-! SUPPORT. The model's own tests. Expected values come from spec/: the encodings of 30_encoding.md and opcode_table.json, the vectors V<n>
and programs P<n> of 95_test_vectors.md, or a calculation by hand from the rule a comment names. -/

namespace Sys2Proof.Tests

open Sys2Proof Sys2Proof.Machine

/-! ### Helpers -/

/-- The `res_word` of a next state. -/
def wordOf : Result → Option (BitVec 64)
  | .next t => some t.res.word
  | .fault _ => none
  | .refused _ => none

/-- The RES of a next state. -/
def resOf : Result → Option Res
  | .next t => some t.res
  | .fault _ => none
  | .refused _ => none

/-- The fault of a stopped instruction. -/
def faultOf : Result → Option Fault
  | .next _ => none
  | .fault r => some r
  | .refused _ => none

/-- A RES with something in every field, so that a field written wrongly or not at all shows. -/
def busyRes : Res :=
  { valid := true, kind := 0, signEmpty := false, signChar := 0x2D, valOl := false, valMant := 1234, valScale := 2, pfx := 1,
    mode := 6, status := 0x155, barRaw := 0x5A }

/-- A state with that RES and inputs at rest. -/
def busy : State := State.reset.withRes busyRes

/-- One edge with these port levels, from the busy state. -/
def edgeWord (rst start : Bool) (len : Byte) (f : Frame) : Option (BitVec 64) :=
  wordOf (step { busy with ports := { rst := rst, start := start, inLen := len, inFrame := f, stable := true } })

/-! ### WellFormed refuses an ill-formed term at each check -/

theorem test_wellFormed_rejects :
    ¬ (Instr.rejLen 14).WellFormed ∧ ¬ (Instr.rejEncSign 0x7F).WellFormed ∧ ¬ (Instr.rejEncDp 0x30).WellFormed ∧
    ¬ (Instr.rejEncDp 0x39).WellFormed ∧ ¬ (Instr.rejEncDigit 0x3F 0x30 0x3A 0x3F).WellFormed ∧
    ¬ (Instr.rejEncDigit 0x30 0x39 0x30 0x39).WellFormed := by decide

theorem test_wellFormed_values :
    ¬ (Instr.valOl 0x3F 0x30 0x3A 0x30).WellFormed ∧ ¬ (Instr.signEmpty 0x30 0x30 0x3A 0x3F).WellFormed ∧
    ¬ (Instr.signVerbatim 0x80 0x30 0x30 0x30 0x30).WellFormed ∧
    ¬ (Instr.signVerbatim 0x2B 0x3F 0x30 0x3A 0x3F).WellFormed ∧ ¬ (Instr.valNum 0x30 0x30 0x30 0x3A).WellFormed ∧
    ¬ (Instr.dpNone 0x31).WellFormed ∧ ¬ (Instr.dp1 0x30).WellFormed ∧ ¬ (Instr.dp2 0x33).WellFormed ∧
    ¬ (Instr.dp3Plus 0x32).WellFormed ∧ ¬ (Instr.dp3Plus 0x3A).WellFormed := by decide

theorem test_wellFormed_flags :
    ¬ (Instr.flagBpn 0xFE).WellFormed ∧ ¬ (Instr.flagHold 0xFD).WellFormed ∧ ¬ (Instr.flagRel 0xFB).WellFormed ∧
    ¬ (Instr.flagAc 0xF7).WellFormed ∧ ¬ (Instr.flagDc 0xEF).WellFormed ∧ ¬ (Instr.flagAuto 0xDF).WellFormed ∧
    ¬ (Instr.flagBatt 0xFB).WellFormed ∧ ¬ (Instr.flagApo 0xF7).WellFormed ∧ ¬ (Instr.flagMin 0xEF).WellFormed ∧
    ¬ (Instr.flagMax 0xDF).WellFormed := by decide

theorem test_wellFormed_units :
    ¬ (Instr.pfxNone 0x10).WellFormed ∧ ¬ (Instr.pfxM 0x30).WellFormed ∧ ¬ (Instr.pfxKilo 0x10).WellFormed ∧
    ¬ (Instr.pfxMilli 0x80).WellFormed ∧ ¬ (Instr.pfxMicro 0x7F).WellFormed ∧ ¬ (Instr.pfxNano 0x00 0x04).WellFormed ∧
    ¬ (Instr.pfxNano 0x02 0x0C).WellFormed ∧ ¬ (Instr.modeNone 0x01).WellFormed ∧ ¬ (Instr.modeDegF 0x03).WellFormed ∧
    ¬ (Instr.modeDegC 0x01).WellFormed ∧ ¬ (Instr.modeFarad 0x08).WellFormed ∧ ¬ (Instr.modeHz 0x07).WellFormed ∧
    ¬ (Instr.modeHfe 0x30).WellFormed ∧ ¬ (Instr.modeOhm 0x1F).WellFormed ∧ ¬ (Instr.modeA 0xC0).WellFormed ∧
    ¬ (Instr.modeV 0x7F).WellFormed := by decide

theorem test_wellFormed_accepts :
    (Instr.rejLen 13).WellFormed ∧ (Instr.rejEncSign 0x80).WellFormed ∧ (Instr.rejEncDp 0x2F).WellFormed ∧
    (Instr.rejEncDigit 0x3F 0x30 0x3A 0x30).WellFormed ∧ (Instr.valOl 0x3F 0x30 0x3A 0x3F).WellFormed ∧
    (Instr.signEmpty 0x3F 0x30 0x3A 0x3F).WellFormed ∧ (Instr.signVerbatim 0x7F 0x30 0x30 0x30 0x39).WellFormed ∧
    (Instr.valNum 0x30 0x39 0x30 0x39).WellFormed ∧ (Instr.dpNone 0x30).WellFormed ∧ (Instr.dp1 0x31).WellFormed ∧
    (Instr.dp2 0x32).WellFormed ∧ (Instr.dp3Plus 0x33).WellFormed ∧ (Instr.dp3Plus 0x39).WellFormed ∧
    (Instr.flagBpn 0x01).WellFormed ∧ (Instr.flagHold 0x02).WellFormed ∧ (Instr.flagRel 0x04).WellFormed ∧
    (Instr.flagAc 0x08).WellFormed ∧ (Instr.flagDc 0x10).WellFormed ∧ (Instr.flagAuto 0x20).WellFormed ∧
    (Instr.flagBatt 0x04).WellFormed ∧ (Instr.flagApo 0x08).WellFormed ∧ (Instr.flagMin 0x10).WellFormed ∧
    (Instr.flagMax 0x20).WellFormed := by decide

/-- Every unit row's test at its lowest and highest byte. -/
theorem test_wellFormed_accepts_units :
    (Instr.pfxNone 0x0F).WellFormed ∧ (Instr.pfxM 0x1F).WellFormed ∧ (Instr.pfxKilo 0x20).WellFormed ∧
    (Instr.pfxMilli 0x7F).WellFormed ∧ (Instr.pfxMicro 0xFF).WellFormed ∧ (Instr.pfxNano 0x02 0x04).WellFormed ∧
    (Instr.modeNone 0x00).WellFormed ∧ (Instr.modeDegF 0x01).WellFormed ∧ (Instr.modeDegC 0x03).WellFormed ∧
    (Instr.modeFarad 0x07).WellFormed ∧ (Instr.modeHz 0x0F).WellFormed ∧ (Instr.modeHfe 0x10).WellFormed ∧
    (Instr.modeOhm 0x3F).WellFormed ∧ (Instr.modeA 0x40).WellFormed ∧ (Instr.modeV 0xFF).WellFormed := by decide

/-! ### Decoding: words written out from the spec's encodings

The frames are 112-bit numbers, byte 0 least significant (R201); every constructor is read from at least one of them. -/

/-- R301: CTRL = {rst, start}. -/
theorem test_decode_ctrl :
    decodeCommand 0b10 14 0 = .reset false ∧ decodeCommand 0b11 14 0 = .reset true ∧
    decodeCommand 0b01 14 0x2B = .decode 14 0x2B ∧ decodeCommand 0b00 14 0 = .idle ∧
    ctrlWord { rst := true, start := false, inLen := 0, inFrame := 0, stable := true } = 0b10 := by decide

/-- The byte lanes: byte 0 is the low byte, byte 13 the high one (R201). -/
theorem test_frame_lanes :
    frameByte 0x0D0C0B0A090807060504030201F0 0 = 0xF0 ∧ frameByte 0x0D0C0B0A090807060504030201F0 1 = 0x01 ∧
    frameByte 0x0D0C0B0A090807060504030201F0 13 = 0x0D ∧
    packFrame [0xF0, 1, 2, 3, 4, 5, 6, 7, 8, 9, 0x0A, 0x0B, 0x0C, 0x0D] = 0x0D0C0B0A090807060504030201F0 := by decide

/-- The four rejecting rows: V10, V11, V12 ('/') and V14 ("1A34"). -/
theorem test_decode_rejects :
    decodeRows 13 0x000000000000003000303030302B = [.rejLen 13] ∧
    decodeRows 14 0x0000000000000030003030303080 = [.rejEncSign 0x80] ∧
    decodeRows 14 0x000000000000002F00303030302B = [.rejEncDp 0x2F] ∧
    decodeRows 14 0x000000000000003000343341312B = [.rejEncDigit 0x31 0x41 0x33 0x34] := by decide

/-- P1's frame: digits "0050", decpos 2, k, V. -/
theorem test_decode_numeric_frame :
    decodeRows 14 0x000000802000003200303530302B =
      [.valNum 0x30 0x30 0x35 0x30, .signVerbatim 0x2B 0x30 0x30 0x35 0x30, .dp2 0x32, .pfxKilo 0x20, .modeV 0x80, .unit,
       .barRaw 0x00] := by decide

/-- P3's frame: the overflow pattern, HOLD and AUTO, mode Ω. -/
theorem test_decode_overflow_frame :
    decodeRows 14 0x0000002000002231003F3A303F2B =
      [.valOl 0x3F 0x30 0x3A 0x3F, .signEmpty 0x3F 0x30 0x3A 0x3F, .flagHold 0x22, .flagAuto 0x22, .pfxNone 0x00, .modeOhm 0x20,
       .unit, .barRaw 0x00] := by decide

/-- P3's second frame: decpos 1, nano bit, byte 9 says k, mode F. -/
theorem test_decode_nano_frame :
    decodeRows 14 0x000000042002003100303734302B =
      [.valNum 0x30 0x34 0x37 0x30, .signVerbatim 0x2B 0x30 0x34 0x37 0x30, .dp1 0x31, .pfxKilo 0x20, .modeFarad 0x04,
       .pfxNano 0x02 0x04, .unit, .barRaw 0x00] := by decide

/-- V17's last frames: every flag row matches its own bit. -/
theorem test_decode_flags :
    flagRows 0x3F 0x3C =
      [.flagBpn 0x3F, .flagHold 0x3F, .flagRel 0x3F, .flagAc 0x3F, .flagDc 0x3F, .flagAuto 0x3F, .flagBatt 0x3C, .flagApo 0x3C,
       .flagMin 0x3C, .flagMax 0x3C] ∧
    flagRows 0x15 0x28 = [.flagBpn 0x15, .flagRel 0x15, .flagDc 0x15, .flagApo 0x28, .flagMax 0x28] ∧
    flagRows 0xC0 0xC3 = [] := by decide

/-- The decimal-point bytes of V4 and V15. -/
theorem test_decode_dp :
    dpRow 0x30 = .dpNone 0x30 ∧ dpRow 0x31 = .dp1 0x31 ∧ dpRow 0x32 = .dp2 0x32 ∧ dpRow 0x33 = .dp3Plus 0x33 ∧
    dpRow 0x39 = .dp3Plus 0x39 := by decide

/-- The byte 9 values of V18. -/
theorem test_decode_pfx :
    pfxRow 0x0F = .pfxNone 0x0F ∧ pfxRow 0x10 = .pfxM 0x10 ∧ pfxRow 0x30 = .pfxKilo 0x30 ∧ pfxRow 0x70 = .pfxMilli 0x70 ∧
    pfxRow 0xF0 = .pfxMicro 0xF0 := by decide

/-- The byte 10 values of V19, and V20's nano rows: 0x0C is Hz and no nano. -/
theorem test_decode_mode :
    modeRow 0x00 = .modeNone 0x00 ∧ modeRow 0x01 = .modeDegF 0x01 ∧ modeRow 0x03 = .modeDegC 0x03 ∧
    modeRow 0x07 = .modeFarad 0x07 ∧ modeRow 0x0C = .modeHz 0x0C ∧ modeRow 0x10 = .modeHfe 0x10 ∧
    modeRow 0x20 = .modeOhm 0x20 ∧ modeRow 0x40 = .modeA 0x40 ∧ modeRow 0xFF = .modeV 0xFF ∧
    nanoRow 0x02 0x05 = [.pfxNano 0x02 0x05] ∧ nanoRow 0xFD 0x04 = [] ∧ nanoRow 0x02 0x0C = [] := by decide

/-- V22: the bar byte is byte 11. -/
theorem test_decode_bar : Instr.barRaw 0xA5 ∈ decodeRows 14 0x0000A5000000003000303030302B := by decide

/-! ### One step per instruction -/

/-- P3 lines 1 and 4: RESET clears RES, and beats `start`. -/
theorem test_reset :
    edgeWord true false 0 0 = some 0 ∧ edgeWord true true 14 0x000000042002003100303734302B = some 0 := by decide

/-- P1 line 3: IDLE holds RES whatever stands on the other ports. -/
theorem test_idle : edgeWord false false 14 0x000000802000003200303530302B = some busyRes.word := by decide

/-- DECODE accepts: V8, V16 (overflow), V7 (nano), V14 ("9999"), P2 (AC and DC, 12.34 Hz), V22 (bar byte). -/
theorem test_decode_accepts :
    edgeWord false true 14 0x000000802000003200303530302B = some 0x000008500642B1 ∧
    edgeWord false true 14 0x0000072010002233003F3A303F2D = some 0x01C22620001009 ∧
    edgeWord false true 14 0x000000042002003000303030302B = some 0x000003A00002B1 ∧
    edgeWord false true 14 0x000000000000003000393939392B = some 0x00000004E1E2B1 ∧
    edgeWord false true 14 0x000000080000183200343332312D = some 0x000184109A42D1 ∧
    edgeWord false true 14 0x0000A5000000003000303030302B = some 0x294000000002B1 := by decide

/-- DECODE rejects: V10 (lengths 13 and 255), V11 (0x80), V12 (':'), V14 ("?0;?"), V13 (the overflow pattern with a bad byte 6). -/
theorem test_decode_rejections :
    edgeWord false true 13 0x0000000000000000004443424180 = some 0x03 ∧
    edgeWord false true 255 0x000000000000003000303030302B = some 0x03 ∧
    edgeWord false true 14 0x0000000000000030003030303080 = some 0x05 ∧
    edgeWord false true 14 0x000000000000003A00303030302B = some 0x05 ∧
    edgeWord false true 14 0x0000000000000030003F3B303F2B = some 0x05 ∧
    edgeWord false true 14 0x0000000000000000003F3A303F2B = some 0x05 := by decide

/-- R402, R701. -/
theorem test_rejLen :
    wordOf (exec (.rejLen 13) busy) = some 0x03 ∧ resOf (exec (.rejLen 14) busy) = some busyRes := by decide

/-- R404, R701. -/
theorem test_rejEncSign :
    wordOf (exec (.rejEncSign 0x80) busy) = some 0x05 ∧ resOf (exec (.rejEncSign 0x7F) busy) = some busyRes := by decide

/-- R405, R701. -/
theorem test_rejEncDp :
    wordOf (exec (.rejEncDp 0x3A) busy) = some 0x05 ∧ resOf (exec (.rejEncDp 0x39) busy) = some busyRes := by decide

/-- R406, R701: "?0:0" rejects, "?0:?" does not. -/
theorem test_rejEncDigit :
    wordOf (exec (.rejEncDigit 0x3F 0x30 0x3A 0x30) busy) = some 0x05 ∧
    resOf (exec (.rejEncDigit 0x3F 0x30 0x3A 0x3F) busy) = some busyRes := by decide

/-- R600. -/
theorem test_valOl :
    resOf (exec (.valOl 0x3F 0x30 0x3A 0x3F) busy) = some { busyRes with valOl := true, valMant := 0, valScale := 0 } := by
  decide

/-- R602. -/
theorem test_signEmpty :
    resOf (exec (.signEmpty 0x3F 0x30 0x3A 0x3F) busy) = some { busyRes with signEmpty := true, signChar := 0 } := by decide

/-- R601: the byte is copied; the overflow pattern leaves the sign alone. -/
theorem test_signVerbatim :
    resOf (exec (.signVerbatim 0x7F 0x31 0x32 0x33 0x34) busy) = some { busyRes with signChar := 0x7F } ∧
    resOf (exec (.signVerbatim 0x7F 0x3F 0x30 0x3A 0x3F) busy) = some busyRes := by decide

/-- R603: byte 1 is the most significant digit; a byte that is no digit is the parse failure of R706. -/
theorem test_valNum :
    resOf (exec (.valNum 0x39 0x38 0x37 0x36) busy) = some { busyRes with valMant := 9876 } ∧
    faultOf (exec (.valNum 0x31 0x41 0x33 0x34) busy) = some .parseFailure := by decide

/-- R604 to R607, each with a byte that is not the row's. -/
theorem test_decimal_point_rows :
    resOf (exec (.dpNone 0x30) busy) = some { busyRes with valScale := 0 } ∧ resOf (exec (.dpNone 0x31) busy) = some busyRes ∧
    resOf (exec (.dp1 0x31) busy) = some { busyRes with valScale := 3 } ∧ resOf (exec (.dp1 0x30) busy) = some busyRes ∧
    resOf (exec (.dp2 0x32) { busy with res := { busyRes with valScale := 0 } }) = some busyRes ∧
    resOf (exec (.dp3Plus 0x39) busy) = some { busyRes with valScale := 1 } ∧
    resOf (exec (.dp3Plus 0x32) busy) = some busyRes := by decide

/-- R501 to R506: STATUS is 01 0101 0101b before; each row writes its own bit, set or clear. -/
theorem test_flag_rows_1 :
    resOf (exec (.flagBpn 0xFE) busy) = some { busyRes with status := 0x154 } ∧
    resOf (exec (.flagHold 0x02) busy) = some { busyRes with status := 0x157 } ∧
    resOf (exec (.flagRel 0x00) busy) = some { busyRes with status := 0x151 } ∧
    resOf (exec (.flagAc 0x08) busy) = some { busyRes with status := 0x15D } ∧
    resOf (exec (.flagDc 0x00) busy) = some { busyRes with status := 0x145 } ∧
    resOf (exec (.flagAuto 0x20) busy) = some { busyRes with status := 0x175 } := by decide

/-- R507 to R510: bits 2 to 5 of byte 8 are flags 6 to 9. -/
theorem test_flag_rows_2 :
    resOf (exec (.flagBatt 0x00) busy) = some { busyRes with status := 0x115 } ∧
    resOf (exec (.flagApo 0x08) busy) = some { busyRes with status := 0x1D5 } ∧
    resOf (exec (.flagMin 0xEF) busy) = some { busyRes with status := 0x055 } ∧
    resOf (exec (.flagMax 0x20) busy) = some { busyRes with status := 0x355 } := by decide

/-- R512 to R516 and R527. -/
theorem test_prefix_rows :
    resOf (exec (.pfxNone 0x0F) busy) = some { busyRes with pfx := 0 } ∧
    resOf (exec (.pfxM 0x1F) busy) = some busyRes ∧
    resOf (exec (.pfxKilo 0x30) busy) = some { busyRes with pfx := 2 } ∧
    resOf (exec (.pfxMilli 0x70) busy) = some { busyRes with pfx := 3 } ∧
    resOf (exec (.pfxMicro 0xF0) busy) = some { busyRes with pfx := 4 } ∧
    resOf (exec (.pfxNano 0x02 0x07) busy) = some { busyRes with pfx := 5 } ∧
    resOf (exec (.pfxNano 0x02 0x0C) busy) = some busyRes := by decide

/-- R518 to R526. -/
theorem test_mode_rows :
    resOf (exec (.modeNone 0x00) busy) = some { busyRes with mode := 0 } ∧
    resOf (exec (.modeDegF 0x01) busy) = some { busyRes with mode := 1 } ∧
    resOf (exec (.modeDegC 0x03) busy) = some { busyRes with mode := 2 } ∧
    resOf (exec (.modeFarad 0x07) busy) = some { busyRes with mode := 3 } ∧
    resOf (exec (.modeHz 0x0C) busy) = some { busyRes with mode := 4 } ∧
    resOf (exec (.modeHfe 0x1F) busy) = some { busyRes with mode := 5 } ∧
    resOf (exec (.modeOhm 0x1F) busy) = some busyRes ∧
    resOf (exec (.modeA 0x7F) busy) = some { busyRes with mode := 7 } ∧
    resOf (exec (.modeV 0xFF) busy) = some { busyRes with mode := 8 } := by decide

/-- R528: UNIT writes no field; a code without a string is a fault (U11). -/
theorem test_unit :
    resOf (exec .unit busy) = some busyRes ∧
    faultOf (exec .unit (State.reset.withRes { busyRes with pfx := 7 })) = some .pfxCode ∧
    faultOf (exec .unit (State.reset.withRes { busyRes with mode := 15 })) = some .modeCode := by decide

/-- V21: every prefix and every mode at least once, and the pair (n, V) that no frame produces. -/
theorem test_unit_text :
    unitText 0 0 = .ok [] ∧ unitText 3 1 = .ok [0x6D, 0xB0, 0x46] ∧ unitText 4 2 = .ok [0xB5, 0xB0, 0x43] ∧
    unitText 5 3 = .ok [0x6E, 0x46] ∧ unitText 1 4 = .ok [0x4D, 0x48, 0x7A] ∧ unitText 2 5 = .ok [0x6B, 0x68, 0x46, 0x45] ∧
    unitText 2 6 = .ok [0x6B, 0x3A9] ∧ unitText 3 7 = .ok [0x6D, 0x41] ∧ unitText 5 8 = .ok [0x6E, 0x56] := by decide

/-- R10: leading and trailing whitespace goes, inner whitespace stays. -/
theorem test_trim : trim [0x20, 0x41, 0x20, 0x42, 0x0A] = [0x41, 0x20, 0x42] := by decide

/-- V11: the sign bytes 0x7F and 0x00 read as those characters; an overflow result has the empty sign. -/
theorem test_signText :
    signText { busyRes with signChar := 0x7F } = [0x7F] ∧ signText { busyRes with signChar := 0x00 } = [0] ∧
    signText { busyRes with signEmpty := true } = [] := by decide

/-- R610. -/
theorem test_barRaw : resOf (exec (.barRaw 0xA5) busy) = some { busyRes with barRaw := 0xA5 } := by decide

/-- The host's reading of V8, V16, V1 and V11's rejection. -/
theorem test_readout :
    readResWord 0x000008500642B1 = .ok (.measured
      { sign := [0x2B], value := .number { mant := 50, scale := 2 }, unit := [0x6B, 0x56], status := [] }) ∧
    readResWord 0x01C22620001009 = .ok (.measured
      { sign := [], value := .overflow, unit := [0x4D, 0x3A9], status := [.HOLD, .AUTO] }) ∧
    readResWord 0x03 = .ok .rejectedLength ∧ readResWord 0x05 = .ok .rejectedEncoding ∧ readResWord 0 = .ok .noResult := by
  decide

/-- R612's worked strings: "12.34", "1234", "123.4". -/
theorem test_point_text :
    insertPoint [0x31, 0x32, 0x33, 0x34] 2 = [0x31, 0x32, 0x2E, 0x33, 0x34] ∧
    insertPoint [0x31, 0x32, 0x33, 0x34] 0 = [0x31, 0x32, 0x33, 0x34] ∧
    insertPoint [0x31, 0x32, 0x33, 0x34] 9 = [0x31, 0x32, 0x33, 0x2E, 0x34] ∧
    parseDecimal [0x31, 0x32, 0x2E, 0x33, 0x34] = some { mant := 1234, scale := 2 } ∧
    parseDecimal [0x31, 0x41, 0x33, 0x34] = none := by decide

/-- R207: `res_word` stands at the block's own address. That another address gives nothing is log 10's choice, not the spec's. -/
theorem test_bus : busRead 0x40 0x40 busy = some busyRes.word ∧ busRead 0x40 0x41 busy = none := by decide

/-- The host's table words: a control word, a whole frame word (P1's), and too long a word. -/
theorem test_table_words :
    decodeTableWord 8 0b10 = some (.reset false) ∧
    decodeTableWord 112 0x000000802000003200303530302B = some (.valNum 0x30 0x30 0x35 0x30) ∧
    decodeTableWord 112 0x80 = some (.rejEncSign 0x80) ∧ decodeTableWord 120 (2 ^ 112) = none ∧
    wordOf (step (State.reset.withFetchWord 112 0x000000802000003200303530302B)) = some 0x000008500642B1 ∧
    wordOf (step (busy.withFetchWord 8 0b10)) = some 0 := by decide

/-! ### Witnesses: for each statement with hypotheses, concrete values that meet them, one per clause -/

/-- P1's frame: "+0050", decpos 2, kV. -/
def numericFrame : Frame := 0x000000802000003200303530302B

/-- P3's overflow frame, with P1's bytes 7 to 11. -/
def overflowFrame : Frame := 0x0000008020000032003F3A303F2B

/-- V11's rejected frame: byte 0 is 0x80. -/
def badFrame : Frame := 0x0000000000000030003030303080

/-- The base frame with bytes 6 to 10 given: sign 0x7F, digits "0000". -/
def frameWith (f6 f7 f8 f9 f10 : Byte) : Frame := packFrame [0x7F, 0x30, 0x30, 0x30, 0x30, 0, f6, f7, f8, f9, f10]

/-- Levels with this control word that present P1's frame. -/
def levels (rst start : Bool) : Edge := { rst := rst, start := start, inLen := 14, inFrame := numericFrame, stable := true }

/-- Levels that violate setup or hold. -/
def lateLevels : Edge := { levels false true with stable := false }

/-- The busy state with these levels now, and a script of one RESET. -/
def presenting (e : Edge) : State := { busy with ports := e, script := [levels true false] }

theorem numericFrame_digits : HasDigits numericFrame := by unfold HasDigits; decide
theorem overflowFrame_overflow : HasOverflow overflowFrame := by unfold HasOverflow; decide
theorem numericFrame_passes : PassesChecks numericFrame := ⟨by decide, by decide, .inr numericFrame_digits⟩
theorem overflowFrame_passes : PassesChecks overflowFrame := ⟨by decide, by decide, .inl overflowFrame_overflow⟩
theorem badFrame_fails : ¬ PassesChecks badFrame := fun h => absurd h.1 (by decide)
theorem frameWith_passes {f6 f7 f8 f9 f10 : Byte} (h : inDigitRange (frameByte (frameWith f6 f7 f8 f9 f10) 6))
    (h0 : frameByte (frameWith f6 f7 f8 f9 f10) 0 ≤ 0x7F) (hd : HasDigits (frameWith f6 f7 f8 f9 f10)) :
    PassesChecks (frameWith f6 f7 f8 f9 f10) := ⟨h0, h, .inr hd⟩

theorem witness_ControlWordSelectsCommand :
    (levels true false).rst = true ∧ ((levels false true).rst = false ∧ (levels false true).start = true) ∧
    ((levels false false).rst = false ∧ (levels false false).start = false) := by decide

theorem witness_StepRunsTheDecodedCommand :
    (State.reset.ports.stable = true ∧ State.reset.script = []) ∧
    (presenting (levels false true)).ports.stable = true ∧ (presenting (levels false true)).script = [levels true false] := by
  decide

theorem witness_ResetBeatsStart :
    (presenting (levels true true)).ports.stable = true ∧ (presenting (levels true true)).ports.rst = true ∧
    (presenting (levels true true)).ports.start = true ∧ (presenting (levels true true)).script = [levels true false] := by decide

theorem witness_CommandCodesRoundTrip :
    encode (.decode 14 numericFrame) = .command 0b01 14 numericFrame ∧ encode (.reset true) = .command 0b11 0 0 ∧
    encode .idle = .command 0b00 0 0 := by decide

theorem witness_SelectedRowsMeetTheTableTests :
    Instr.pfxKilo 0x20 ∈ decodeRows 14 numericFrame ∧ ((9, 0xE0, 0x20) : Fin 14 × Byte × Byte) ∈ tableBytes (.pfxKilo 0x20) := by
  decide

theorem witness_IdleHoldsRes :
    (presenting (levels false false)).ports.stable = true ∧ (presenting (levels false false)).ports.rst = false ∧
    (presenting (levels false false)).ports.start = false := by decide

/-- V22 rows 1 and 3 (byte 11 equal) and rows 1 and 4 (byte 11 differs). -/
theorem witness_IgnoredBitsHaveNoEffect :
    (ReadAlike 0x000000000000003000303030302B 0xFFFF00000FC1C030FF303030302B ∧
      frameByte 0x000000000000003000303030302B 11 = frameByte 0xFFFF00000FC1C030FF303030302B 11) ∧
    ReadAlike 0x000000000000003000303030302B 0x0000A5000000003000303030302B :=
  ⟨⟨⟨by decide, by decide, by decide, by decide, by decide, by decide, by decide, by decide, by decide, by decide⟩, by decide⟩,
    ⟨by decide, by decide, by decide, by decide, by decide, by decide, by decide, by decide, by decide, by decide⟩⟩

theorem witness_OnlyResIsWritten : exec (.reset false) busy = .next (busy.withRes Res.cleared) := rfl

theorem witness_WrongLengthRejects : (13 : Byte) ≠ 14 ∧ (15 : Byte) ≠ 14 := by decide

/-- Each clause of CharacterCheckRows at the bytes on both sides of its bounds. -/
theorem witness_CharacterCheckRows :
    (0x80 : Byte) ≤ 0x80 ∧ (0x7F : Byte) < 0x80 ∧ ¬ inDigitRange 0x2F ∧ ¬ inDigitRange 0x3A ∧ inDigitRange 0x30 ∧
    inDigitRange 0x39 ∧ isOverflowBytes 0x3F 0x30 0x3A 0x3F ∧
    (¬ isOverflowBytes 0x3F 0x30 0x3A 0x30 ∧
      ¬ (inDigitRange 0x3F ∧ inDigitRange 0x30 ∧ inDigitRange 0x3A ∧ inDigitRange 0x30)) := by decide

theorem witness_RejectionWritesEveryField :
    ¬ ((13 : Byte) = 14 ∧ PassesChecks numericFrame) ∧ ¬ ((14 : Byte) = 14 ∧ PassesChecks badFrame) :=
  ⟨fun h => absurd h.1 (by decide), fun h => badFrame_fails h.2⟩

theorem witness_CheckedFramesAreAccepted : PassesChecks numericFrame ∧ PassesChecks overflowFrame :=
  ⟨numericFrame_passes, overflowFrame_passes⟩

theorem witness_OverflowFrameReadsOL :
    frameByte overflowFrame 0 ≤ 0x7F ∧ inDigitRange (frameByte overflowFrame 6) ∧ HasOverflow overflowFrame :=
  ⟨by decide, by decide, overflowFrame_overflow⟩

theorem witness_ValuePathLeavesFlagsAndUnits :
    PassesChecks overflowFrame ∧ PassesChecks numericFrame ∧
    frameByte overflowFrame 7 = frameByte numericFrame 7 ∧ frameByte overflowFrame 8 = frameByte numericFrame 8 ∧
    frameByte overflowFrame 9 = frameByte numericFrame 9 ∧ frameByte overflowFrame 10 = frameByte numericFrame 10 ∧
    frameByte overflowFrame 11 = frameByte numericFrame 11 :=
  ⟨overflowFrame_passes, numericFrame_passes, by decide, by decide, by decide, by decide, by decide⟩

/-- Numeric frames with decpos 0, 1, 2, 3 and 9 (NumericFrameValue, ValueIsThePunctuatedString), the sign at its bound 0x7F. -/
theorem witness_NumericFrameValue :
    ∀ f6 ∈ ([0x30, 0x31, 0x32, 0x33, 0x39] : List Byte),
      frameByte (frameWith f6 0 0 0 0) 0 ≤ 0x7F ∧ frameByte (frameWith f6 0 0 0 0) 6 = f6 ∧ inDigitRange f6 ∧
      HasDigits (frameWith f6 0 0 0 0) := by unfold HasDigits; decide

theorem witness_ValueIsThePunctuatedString :
    frameByte numericFrame 0 ≤ 0x7F ∧ inDigitRange (frameByte numericFrame 6) ∧ HasDigits numericFrame :=
  ⟨by decide, by decide, numericFrame_digits⟩

theorem witness_OverflowAndSignRows : isOverflowBytes 0x3F 0x30 0x3A 0x3F ∧ ¬ isOverflowBytes 0x3F 0x30 0x3A 0x3E := by decide

theorem witness_MantissaRow :
    (inDigitRange 0x30 ∧ inDigitRange 0x39 ∧ inDigitRange 0x30 ∧ inDigitRange 0x39) ∧
    ¬ (inDigitRange 0x30 ∧ inDigitRange 0x30 ∧ inDigitRange 0x30 ∧ inDigitRange 0x3A) := by decide

theorem witness_DecimalPointRows :
    (Instr.dp3Plus 0x33).WellFormed ∧ (Instr.dp3Plus 0x39).WellFormed ∧ ¬ (Instr.dp3Plus 0x32).WellFormed ∧
    (Instr.dpNone 0x30).WellFormed ∧ ¬ (Instr.dpNone 0x31).WellFormed ∧ (Instr.dp1 0x31).WellFormed ∧
    ¬ (Instr.dp1 0x32).WellFormed ∧ (Instr.dp2 0x32).WellFormed ∧ ¬ (Instr.dp2 0x33).WellFormed := by decide

theorem witness_BarByteCopiedVerbatim :
    PassesChecks numericFrame ∧ ¬ ((14 : Byte) = 14 ∧ PassesChecks badFrame) ∧ ¬ ((15 : Byte) = 14 ∧ PassesChecks numericFrame) :=
  ⟨numericFrame_passes, fun h => badFrame_fails h.2, fun h => absurd h.1 (by decide)⟩

theorem witness_SignAndOverflowFields :
    ((14 : Byte) = 14 ∧ PassesChecks (frameWith 0x30 0 0 0 0) ∧ HasDigits (frameWith 0x30 0 0 0 0)) ∧
    ¬ ((14 : Byte) = 14 ∧ PassesChecks badFrame ∧ HasDigits badFrame) ∧
    ({ busyRes with signEmpty := true }).signEmpty = true ∧ busyRes.signEmpty = false ∧ (0x7F : Byte) ≤ 0x7F :=
  ⟨⟨rfl, frameWith_passes (by decide) (by decide) (by unfold HasDigits; decide), by unfold HasDigits; decide⟩,
    fun h => badFrame_fails h.2.1, rfl, rfl, by decide⟩

/-- Every flag of both status bytes, and a rejected presentation. -/
theorem witness_StatusBitsOfAnAcceptedFrame :
    PassesChecks (frameWith 0x30 0x3F 0x3C 0 0) ∧ ¬ ((14 : Byte) = 14 ∧ PassesChecks badFrame) :=
  ⟨frameWith_passes (by decide) (by decide) (by unfold HasDigits; decide), fun h => badFrame_fails h.2⟩

/-- The highest bit of a byte, from its eight bits. -/
theorem highestBit_of {b : Byte} {n : Nat} (h : b.getLsbD n = true) (rest : ∀ m < 8, n < m → b.getLsbD m = false) :
    HighestBit b n :=
  ⟨h, fun m hm => (Nat.lt_or_ge m 8).elim (fun h8 => rest m h8 hm) (BitVec.getLsbD_of_ge b m)⟩

/-- Byte 10 clear, with only bit 0, and with every bit. -/
theorem witness_AcceptedModeIsHighestBit :
    (PassesChecks (frameWith 0x30 0 0 0 0) ∧ frameByte (frameWith 0x30 0 0 0 0) 10 = 0) ∧
    (PassesChecks (frameWith 0x30 0 0 0 0x01) ∧ HighestBit (frameByte (frameWith 0x30 0 0 0 0x01) 10) 0) ∧
    (PassesChecks (frameWith 0x30 0 0 0 0xFF) ∧ HighestBit (frameByte (frameWith 0x30 0 0 0 0xFF) 10) 7) :=
  ⟨⟨frameWith_passes (by decide) (by decide) (by unfold HasDigits; decide), by decide⟩,
    ⟨frameWith_passes (by decide) (by decide) (by unfold HasDigits; decide), highestBit_of (by decide) (by decide)⟩,
    ⟨frameWith_passes (by decide) (by decide) (by unfold HasDigits; decide), highestBit_of (by decide) (by decide)⟩⟩

/-- The override fires (V20 row 1); it does not (V20 row 4), with byte 9 at 0x0F (no prefix), 0x10 (bit 4) and 0xF0 (bit 7). -/
theorem witness_AcceptedPrefixAndNanoOverride :
    resOf (exec (.decode 14 (frameWith 0x30 0 0x02 0x20 0x04)) busy) =
      some { Res.cleared with valid := true, signChar := 0x7F, pfx := 5, mode := 3 } ∧
    resOf (exec (.decode 14 (frameWith 0x30 0 0x02 0x20 0x0C)) busy) =
      some { Res.cleared with valid := true, signChar := 0x7F, pfx := 2, mode := 4 } ∧
    PassesChecks (frameWith 0x30 0 0x02 0x20 0x0C) ∧
    frameByte (frameWith 0x30 0 0 0x0F 0) 9 &&& 0xF0 = 0 ∧
    HighestBit (frameByte (frameWith 0x30 0 0 0x10 0) 9) 4 ∧ HighestBit (frameByte (frameWith 0x30 0 0 0xF0 0) 9) 7 :=
  ⟨by decide, by decide, frameWith_passes (by decide) (by decide) (by unfold HasDigits; decide), by decide,
    highestBit_of (by decide) (by decide), highestBit_of (by decide) (by decide)⟩

theorem witness_UnitStringIsConcatenation : (5 : BitVec 3).toNat < 6 ∧ (8 : BitVec 4).toNat < 9 := by decide

theorem witness_UnitRowFaultsOnUnwrittenCodes :
    6 ≤ (State.reset.withRes { busyRes with pfx := 6 }).res.pfx.toNat ∧ (State.reset.withRes { busyRes with mode := 9 }).res.pfx.toNat < 6 ∧
    9 ≤ (State.reset.withRes { busyRes with mode := 9 }).res.mode.toNat := by decide

theorem witness_MeasurementReadout :
    Res.cleared.valid = false ∧ ((rejectedRes 1).valid = true ∧ (rejectedRes 1).kind = 1) ∧
    ((rejectedRes 2).valid = true ∧ (rejectedRes 2).kind = 2) ∧
    (busyRes.valid = true ∧ busyRes.kind = 0 ∧ unitText busyRes.pfx busyRes.mode = .ok [0x4D, 0x3A9]) := by decide

theorem witness_ReadingUnwrittenCodesFaults :
    ((rejectedRes 3).valid = true ∧ (rejectedRes 3).kind = 3) ∧
    (busyRes.valid = true ∧ busyRes.kind = 0 ∧ busyRes.pfx.toNat < 6) ∧ 6 ≤ (6 : BitVec 3).toNat ∧ 9 ≤ (9 : BitVec 4).toNat ∧
    (0x0040000000000000 : BitVec 64).extractLsb' 54 10 ≠ 0 ∧ (0x8000000000000000 : BitVec 64).extractLsb' 54 10 ≠ 0 := by decide

theorem busyRes_legal : busyRes.Legal :=
  ⟨by decide, by decide, by decide, by decide, by decide, by decide, by decide, by decide, by decide, by decide⟩

theorem presenting_inputsStable (e : Edge) (h : e.stable = true) : (presenting e).InputsStable :=
  ⟨h, by simp [presenting, levels]⟩

/-- A state that meets the invariant and steps (StepKeepsLegalRes, InvariantStatesAreReadable). -/
theorem witness_StepKeepsLegalRes :
    (presenting (levels false true)).Inv ∧ ∃ t, step (presenting (levels false true)) = .next t :=
  ⟨⟨busyRes_legal, presenting_inputsStable _ rfl⟩, (step_next _).elim (fun h => ⟨_, h.2.choose_spec.2⟩) fun h => ⟨_, h.2⟩⟩

theorem witness_InvariantStatesAreReadable : busy.Inv := ⟨busyRes_legal, rfl, by simp [busy]⟩

/-- From an illegal RES (KIND 3), with RESET and with DECODE presented. -/
theorem witness_FirstCommandMakesResLegal :
    (presenting (levels true false)).InputsStable ∧ (presenting (levels true false)).ports.rst = true ∧
    ((presenting (levels false true)).withRes (rejectedRes 3)).InputsStable ∧
    (presenting (levels false true)).ports.start = true ∧ ¬ (rejectedRes 3).Legal :=
  ⟨presenting_inputsStable _ rfl, rfl, presenting_inputsStable (levels false true) rfl, rfl, fun h => h.kind_written rfl⟩

theorem witness_ValidFlagLife :
    (∀ rst start, (presenting (levels rst start)).ports.stable = true ∧ (presenting (levels rst start)).ports.rst = rst ∧
      (presenting (levels rst start)).ports.start = start) ∧
    ({ busyRes with valid := false }).valid = false ∧ Res.cleared.valid = false := by decide

theorem witness_LastTransactionDecidesRes :
    ({ busy with script := [lateLevels, levels true false, levels false true] } : State).script =
      [lateLevels, levels true false] ++ [levels false true] ∧
    (levels false true).stable = true ∧ (levels false true).rst = false ∧ (levels false true).start = true := by decide

theorem witness_UnstableEdgeLeavesAnyValue :
    ((busy.withRes busyRes).script = [] ∧ ({ busy with ports := lateLevels } : State).ports.stable = false) ∧
    (presenting lateLevels).ports.stable = false ∧ (presenting lateLevels).script = [levels true false] := by decide

end Sys2Proof.Tests
end

section
/-! SUPPORT. The checks of a frame and the RES that a DECODE writes, in the spec's words: one equation per outcome, and what an edge that
meets setup and hold does. -/

namespace Sys2Proof.Machine

/-! ### What DECODE writes, by the checks of R402 to R406 -/

theorem passesChecks_iff (f : Frame) :
    PassesChecks f ↔ isChar (frameByte f 0) = true ∧ isDigit (frameByte f 6) = true ∧
      (isOverflow (frameByte f 1) (frameByte f 2) (frameByte f 3) (frameByte f 4) = true ∨
        areDigits (frameByte f 1) (frameByte f 2) (frameByte f 3) (frameByte f 4) = true) := by
  rw [isChar_iff, isDigit_iff, isOverflow_iff, areDigits_iff]
  rfl

/-- The two legal contents of bytes 1 to 4 exclude each other (R304). -/
theorem HasOverflow.not_hasDigits {f : Frame} (overflow : HasOverflow f) : ¬ HasDigits f := by
  have notDigits := overflow_not_digits ((isOverflow_iff ..).2 overflow)
  intro digits
  simp [(areDigits_iff ..).2 digits] at notDigits

theorem decodedRes_of_length {len : Byte} (wrong : len ≠ 14) (f : Frame) : decodedRes len f = rejectedRes 1 := by
  rw [decodedRes, classify, if_pos wrong]

theorem decodedRes_of_failed_check {f : Frame} (fails : ¬ PassesChecks f) : decodedRes 14 f = rejectedRes 2 := by
  rw [passesChecks_iff] at fails
  unfold decodedRes classify
  by_cases sign : isChar (frameByte f 0)
  · by_cases point : isDigit (frameByte f 6)
    · obtain ⟨noOverflow, noDigits⟩ := not_or.1 fun digitField => fails ⟨sign, point, digitField⟩
      simp [sign, point, noOverflow, noDigits]
    · simp [sign, point]
  · simp [sign]

theorem decodedRes_of_overflow {f : Frame} (passes : PassesChecks f) (overflow : HasOverflow f) :
    decodedRes 14 f = acceptedRes true 0 true 0 0 f := by
  obtain ⟨sign, point, -⟩ := (passesChecks_iff f).1 passes
  simp [decodedRes, classify, sign, point, (isOverflow_iff ..).2 overflow]

theorem decodedRes_of_digits {f : Frame} (passes : PassesChecks f) (digits : HasDigits f) :
    decodedRes 14 f = acceptedRes false (frameByte f 0) false
      (BitVec.ofNat 14 (mantissa (frameByte f 1) (frameByte f 2) (frameByte f 3) (frameByte f 4)))
      (BitVec.ofNat 2 (scaleOf (decpos (frameByte f 6)))) f := by
  obtain ⟨sign, point, -⟩ := (passesChecks_iff f).1 passes
  have noOverflow := mt (isOverflow_iff ..).1 fun overflow => HasOverflow.not_hasDigits overflow digits
  simp [decodedRes, classify, sign, point, noOverflow, (areDigits_iff ..).2 digits]

/-- The three ways a DECODE can end: a rejection with KIND 1 or 2, an overflow accept, a numeric accept (R315). -/
theorem decode_outcomes (len : Byte) (f : Frame) :
    (¬ (len = 14 ∧ PassesChecks f) ∧ decodedRes len f = rejectedRes (if len = 14 then 2 else 1)) ∨
    (len = 14 ∧ PassesChecks f ∧ HasOverflow f) ∨ (len = 14 ∧ PassesChecks f ∧ HasDigits f) := by
  by_cases length : len = 14
  · subst length
    by_cases passes : PassesChecks f
    · exact .inr (passes.2.2.imp (⟨rfl, passes, ·⟩) (⟨rfl, passes, ·⟩))
    · exact .inl ⟨fun h => passes h.2, decodedRes_of_failed_check passes⟩
  · exact .inl ⟨fun h => length h.1, by rw [decodedRes_of_length length, if_neg length]⟩

theorem decodedRes_of_rejected {len : Byte} {f : Frame} (rejected : ¬ (len = 14 ∧ PassesChecks f)) :
    decodedRes len f = rejectedRes (if len = 14 then 2 else 1) := by
  obtain ⟨-, result⟩ | ⟨length, passes, -⟩ | ⟨length, passes, -⟩ := decode_outcomes len f
  · exact result
  · exact absurd ⟨length, passes⟩ rejected
  · exact absurd ⟨length, passes⟩ rejected

/-- An accepted frame writes bytes 7 to 11 in one way, be it an overflow or a number (R529). -/
theorem decodedRes_of_passes {f : Frame} (passes : PassesChecks f) :
    ∃ empty char ol mant scale, decodedRes 14 f = acceptedRes empty char ol mant scale f := by
  obtain overflow | digits := passes.2.2
  · exact ⟨_, _, _, _, _, decodedRes_of_overflow passes overflow⟩
  · exact ⟨_, _, _, _, _, decodedRes_of_digits passes digits⟩

/-- Every DECODE, accepted or rejected, leaves a result (R104). -/
theorem decodedRes_valid (len : Byte) (f : Frame) : (decodedRes len f).valid = true := by
  unfold decodedRes
  split <;> rfl

/-! ### What an edge does -/

/-- RESET writes the reset values, whatever `start` is (R800). -/
theorem exec_reset_eq (start : Bool) (s : State) : exec (.reset start) s = .next (s.withRes Res.cleared) := rfl

/-- RES after the command that the levels of an edge select (R301). -/
def commandRes (e : Edge) (r : Res) : Res :=
  if e.rst then Res.cleared else if e.start then decodedRes e.inLen e.inFrame else r

theorem exec_decodeEdge_eq (e : Edge) (s : State) :
    exec (decodeEdge e) s = .next (s.withRes (commandRes e s.res)) := by
  rw [decodeEdge_eq]
  unfold commandRes
  split
  · exact exec_reset_eq ..
  · split
    · exact exec_decode_eq ..
    · rfl

/-- At an edge that meets setup and hold, the selected command writes RES and the host moves on (R206, R208). -/
theorem step_of_stable {s : State} (stable : s.ports.stable = true) :
    step s = .next (s.withRes (commandRes s.ports s.res)).advance := by
  simp [step, stable, exec_decodeEdge_eq]

end Sys2Proof.Machine
end

section
/-! SUPPORT. RES holds only what the rules write, and the inputs to come stay stable: the invariant of a run. -/

namespace Sys2Proof.Machine

/-! ### Legal contents of RES -/

theorem cleared_legal : Res.cleared.Legal :=
  ⟨by decide, fun _ => rfl, by decide, by decide, by decide, by decide, by decide, by decide, rfl, by decide⟩

theorem rejectedRes_legal {kind : BitVec 2} (written : kind ≠ 3) : (rejectedRes kind).Legal where
  kind_written := written
  no_result := nofun
  rejected := fun _ => rfl
  sign_is_char := cleared_legal.sign_is_char
  mant_bound := cleared_legal.mant_bound
  pfx_written := cleared_legal.pfx_written
  mode_written := cleared_legal.mode_written
  nano_under_farad := cleared_legal.nano_under_farad
  empty_iff_overflow := rfl
  overflow_cleared := nofun

/-- The unit codes of an accepted frame are legal by the decoders' bounds; the value pair has to be (R103, R527). -/
theorem acceptedRes_legal {ol : Bool} {char : Byte} {mant : BitVec 14} {scale : BitVec 2} (f : Frame)
    (inRange : char ≤ Config.charMax) (bound : mant.toNat ≤ 9999) (cleared : ol = true → char = 0 ∧ mant = 0 ∧ scale = 0) :
    (acceptedRes ol char ol mant scale f).Legal where
  kind_written := by simp [acceptedRes]
  no_result := nofun
  rejected := fun h => absurd rfl h
  sign_is_char := inRange
  mant_bound := bound
  pfx_written := nanoOverride_lt _ _ (pfxDecode_lt _)
  mode_written := modeDecode_lt _
  nano_under_farad := fun nano => ((nanoOverride_eq_nano _ _ (pfxDecode_lt _)).1 nano).1
  empty_iff_overflow := rfl
  overflow_cleared := cleared

theorem decodedRes_legal (len : Byte) (f : Frame) : (decodedRes len f).Legal := by
  obtain ⟨-, result⟩ | ⟨rfl, passes, overflow⟩ | ⟨rfl, passes, digits⟩ := decode_outcomes len f
  · rw [result]
    exact rejectedRes_legal (by split <;> decide)
  · rw [decodedRes_of_overflow passes overflow]
    exact acceptedRes_legal f (by decide) (by decide) fun _ => ⟨rfl, rfl, rfl⟩
  · rw [decodedRes_of_digits passes digits]
    refine acceptedRes_legal f passes.1 ?_ nofun
    obtain ⟨digit1, digit2, digit3, digit4⟩ := digits
    have bound := mantissa_le digit1 digit2 digit3 digit4
    exact (BitVec.toNat_ofNat .. ▸ Nat.mod_le _ _).trans bound

theorem commandRes_legal {r : Res} (legal : r.Legal) (e : Edge) : (commandRes e r).Legal := by
  unfold commandRes
  split
  · exact cleared_legal
  · split
    · exact decodedRes_legal ..
    · exact legal

/-! ### The inputs to come -/

theorem State.InputsStable.withRes {s : State} (inputs : s.InputsStable) (r : Res) : (s.withRes r).InputsStable := inputs

/-- The next levels come from the script, all of which meets setup and hold. -/
theorem State.InputsStable.advance {s : State} (inputs : s.InputsStable) : s.advance.InputsStable := by
  cases script : s.script with
  | nil => rwa [State.advance_nil script]
  | cons e es =>
    obtain ⟨-, later⟩ := inputs
    rw [script] at later
    rw [State.advance_cons script]
    exact List.forall_mem_cons.1 later

/-! ### The obligations -/

/-- Settles O44: a stable edge writes RES through one command, each of which writes legal contents, and moves on along a stable script. -/
theorem stepKeepsLegalRes : Obligations.StepKeepsLegalRes := by
  rintro s t ⟨legal, inputs⟩ next
  obtain rfl : (s.withRes (commandRes s.ports s.res)).advance = t := by
    simpa [step_of_stable inputs.1] using next
  exact ⟨by simpa using commandRes_legal legal s.ports, (inputs.withRes _).advance⟩

/-- Settles O45: RES is cleared, the resting inputs are stable and nothing is scripted. -/
theorem resetMeetsTheInvariant : Obligations.ResetMeetsTheInvariant :=
  ⟨cleared_legal, rfl, List.forall_mem_nil _⟩

/-- Settles O43: the reset state holds the cleared RES, whose fields are read off one by one. -/
theorem resetStateOfRes : Obligations.ResetStateOfRes :=
  ⟨rfl, rfl, rfl, rfl, rfl, rfl, rfl, rfl, rfl, rfl, rfl, by decide, rfl⟩

/-- Settles O48: VALID of each command's RES, by the three control words. -/
theorem validFlagLife : Obligations.ValidFlagLife := by
  refine ⟨rfl, fun s stable => ⟨_, step_of_stable stable, ?_, ?_, ?_⟩, ?_⟩
  · intro rst
    simp [commandRes, rst]
  · intro rst start
    simp [commandRes, rst, start, decodedRes_valid]
  · intro rst start
    simp [commandRes, rst, start]
  · intro r r' invalid invalid'
    simp [readResult, invalid, invalid']

end Sys2Proof.Machine
end

section
/-! SUPPORT. The fields of RES after a DECODE and a RESET: the bar byte, the sign pair and the overflow marker, the status flags. -/

namespace Sys2Proof.Machine

/-- Settles O29: byte 11 by the accepted RES, 0 by the rejected and the cleared RES. -/
theorem barByteCopiedVerbatim : Obligations.BarByteCopiedVerbatim := by
  refine ⟨fun f s passes => ⟨_, exec_decode_eq .., ?_⟩, fun len f s rejected => ⟨_, exec_decode_eq .., ?_⟩,
    fun b s => ⟨_, exec_reset_eq .., rfl⟩, fun r b => rfl⟩
  · obtain ⟨_, _, _, _, _, result⟩ := decodedRes_of_passes passes
    rw [State.withRes_res, result]
    rfl
  · rw [State.withRes_res, decodedRes_of_rejected rejected]
    rfl

/-- The sign pair and the overflow marker that a DECODE writes (R106, R107, R108). -/
theorem decodedRes_sign_overflow (len : Byte) (f : Frame) :
    ((decodedRes len f).signEmpty = true ↔ len = 14 ∧ PassesChecks f ∧ HasOverflow f) ∧
    ((decodedRes len f).valOl = true ↔ len = 14 ∧ PassesChecks f ∧ HasOverflow f) ∧
    (len = 14 → PassesChecks f → HasDigits f →
      (decodedRes len f).signChar = frameByte f 0 ∧ (decodedRes len f).signChar ≤ 0x7F) ∧
    (¬ (len = 14 ∧ PassesChecks f ∧ HasDigits f) → (decodedRes len f).signChar = 0) := by
  obtain ⟨rejected, result⟩ | ⟨rfl, passes, overflow⟩ | ⟨rfl, passes, digits⟩ := decode_outcomes len f
  · have never {P : Prop} : ¬ (len = 14 ∧ PassesChecks f ∧ P) := fun h => rejected ⟨h.1, h.2.1⟩
    rw [result]
    exact ⟨iff_of_false nofun never, iff_of_false nofun never, fun h14 hp _ => absurd ⟨h14, hp⟩ rejected, fun _ => rfl⟩
  · rw [decodedRes_of_overflow passes overflow]
    have all : (14 : Byte) = 14 ∧ PassesChecks f ∧ HasOverflow f := ⟨rfl, passes, overflow⟩
    exact ⟨iff_of_true rfl all, iff_of_true rfl all, fun _ _ digits => absurd digits overflow.not_hasDigits, fun _ => rfl⟩
  · rw [decodedRes_of_digits passes digits]
    have noOverflow : ¬ ((14 : Byte) = 14 ∧ PassesChecks f ∧ HasOverflow f) := fun h => h.2.2.not_hasDigits digits
    exact ⟨iff_of_false nofun noOverflow, iff_of_false nofun noOverflow, fun _ _ _ => ⟨rfl, passes.1⟩,
      fun h => absurd ⟨rfl, passes, digits⟩ h⟩

/-- Settles O30, by the three outcomes of a DECODE and the two readings of the sign pair. -/
theorem signAndOverflowFields : Obligations.SignAndOverflowFields :=
  ⟨fun len f _ => ⟨_, exec_decode_eq .., decodedRes_sign_overflow len f⟩,
    fun _ _ => ⟨_, exec_reset_eq .., rfl, rfl, rfl⟩,
    fun _ => ⟨signText_empty, signText_char⟩,
    fun _ => chr_of_le⟩

/-! ### Status flags -/

/-- A flag of the status word is what its own entry of ROM.STATUS tests: a later entry writes another flag (R500). -/
theorem statusDecode_getLsbD (s1 s2 : Byte) {i : Nat} {e : StatusEntry} (entry : romStatus[i]? = some e) :
    (statusDecode s1 s2).getLsbD i = flagSet e s1 s2 := by
  obtain ⟨bound, rfl⟩ := List.getElem?_eq_some_iff.1 entry
  simp only [romStatus, List.length_cons, List.length_nil] at bound
  interval_cases i <;> simp [statusDecode, romStatus, writeFlag_getLsbD, -BitVec.getLsbD_eq_getElem]

/-- A flag whose mask is one bit is that bit of its status byte (R120). -/
theorem flagSet_of_mask {e : StatusEntry} (s1 s2 : Byte) {k : Nat} (mask : e.mask = BitVec.twoPow 8 k) (hk : k < 8) :
    flagSet e s1 s2 = (if e.byte = 7 then s1 else s2).getLsbD k := by
  have notZero : BitVec.twoPow 8 k ≠ 0#8 := by
    intro zero
    simpa [hk] using congrArg (·.getLsbD k) zero
  unfold flagSet
  rw [mask, BitVec.and_twoPow]
  cases (if e.byte = 7 then s1 else s2).getLsbD k <;> simp [notZero]

/-- Flags 0 to 5 are bits 0 to 5 of status byte 1 (R501 to R506). -/
theorem statusDecode_getLsbD_byte7 (s1 s2 : Byte) {i : Nat} (hi : i < 6) :
    (statusDecode s1 s2).getLsbD i = s1.getLsbD i := by
  have row : ∃ e, romStatus[i]? = some e ∧ e.byte = 7 ∧ e.mask = BitVec.twoPow 8 i := by
    interval_cases i <;> exact ⟨_, rfl, rfl, rfl⟩
  obtain ⟨e, entry, byte, mask⟩ := row
  rw [statusDecode_getLsbD s1 s2 entry, flagSet_of_mask s1 s2 mask (by omega), if_pos byte]

/-- Flags 6 to 9 are bits 2 to 5 of status byte 2 (R507 to R510). -/
theorem statusDecode_getLsbD_byte8 (s1 s2 : Byte) {i : Nat} (hi : i < 4) :
    (statusDecode s1 s2).getLsbD (i + 6) = s2.getLsbD (i + 2) := by
  have row : ∃ e, romStatus[i + 6]? = some e ∧ e.byte ≠ 7 ∧ e.mask = BitVec.twoPow 8 (i + 2) := by
    interval_cases i <;> exact ⟨_, rfl, by decide, rfl⟩
  obtain ⟨e, entry, byte, mask⟩ := row
  rw [statusDecode_getLsbD s1 s2 entry, flagSet_of_mask s1 s2 mask (by omega), if_neg byte]

/-- No two entries of ROM.STATUS share a tag (R120). -/
theorem romStatus_index_of_tag {i j : Nat} {e e' : StatusEntry} (entry : romStatus[i]? = some e)
    (entry' : romStatus[j]? = some e') (sameTag : e.tag = e'.tag) : i = j := by
  have distinct : (romStatus.map (·.tag)).Nodup := by decide
  refine (List.getElem?_inj ?_ distinct).1 (by simp [entry, entry', sameTag])
  simpa using (List.getElem?_eq_some_iff.1 entry).1

/-- The tag of entry `i` is read exactly when bit `i` is set (R113). -/
theorem tag_mem_statusTags (status : BitVec 10) {i : Nat} {e : StatusEntry} (entry : romStatus[i]? = some e) :
    e.tag ∈ statusTags status ↔ status.getLsbD i = true := by
  simp only [statusTags, List.mem_map, List.mem_filter, List.mem_zipIdx_iff_getElem?, Prod.exists]
  constructor
  · rintro ⟨e', j, ⟨entry', set⟩, sameTag⟩
    rwa [romStatus_index_of_tag entry entry' sameTag.symm]
  · exact fun set => ⟨e, i, ⟨entry, set⟩, rfl⟩

/-- Reading the flags drops tags from the table's list and moves none (R113). -/
theorem statusTags_sublist (status : BitVec 10) :
    (statusTags status).Sublist [.BPN, .HOLD, .REL, .AC, .DC, .AUTO, .BATT, .APO, .MIN, .MAX] :=
  List.filter_sublist.map fun e : StatusEntry × Nat => e.1.tag

/-- Settles O33: each flag by its entry of ROM.STATUS, and each tag by its index there. -/
theorem statusBitsOfAnAcceptedFrame : Obligations.StatusBitsOfAnAcceptedFrame := by
  refine ⟨fun f s passes => ⟨_, exec_decode_eq .., ?_⟩, fun len f s rejected => ⟨_, exec_decode_eq .., ?_⟩,
    fun b s => ⟨_, exec_reset_eq .., rfl⟩, statusTags_sublist, fun status => ?_⟩
  · obtain ⟨_, _, _, _, _, result⟩ := decodedRes_of_passes passes
    rw [State.withRes_res, result]
    exact ⟨fun _ => statusDecode_getLsbD_byte7 _ _, fun _ => statusDecode_getLsbD_byte8 _ _⟩
  · rw [State.withRes_res, decodedRes_of_rejected rejected]
    rfl
  · have read (i : Fin 10) : romStatus[i].tag ∈ statusTags status ↔ status.getLsbD i = true :=
      tag_mem_statusTags status (List.getElem?_eq_getElem i.2)
    exact ⟨read 0, read 1, read 2, read 3, read 4, read 5, read 6, read 7, read 8, read 9⟩

end Sys2Proof.Machine
end

section
/-! SUPPORT. The packed word: a field is read back where it was placed, and no other field reaches its bits. -/

namespace Sys2Proof.Machine

theorem placeField_getLsbD {n : Nat} (low : Nat) (v : BitVec n) (i : Nat) :
    (placeField low v).getLsbD i = (decide (i < 64) && !decide (i < low) && v.getLsbD (i - low)) := by
  rw [placeField, BitVec.getLsbD_shiftLeft, BitVec.getLsbD_setWidth]
  by_cases inWord : i < 64
  · have shifted : i - low < 64 := by omega
    simp [shifted]
  · simp [inWord]

/-- A field that fits in the word is read back from its own bits. -/
theorem extract_placeField {n low : Nat} (v : BitVec n) (fits : low + n ≤ 64) :
    (placeField low v).extractLsb' low n = v := by
  apply BitVec.eq_of_getLsbD_eq
  intro i hi
  have inWord : low + i < 64 := by omega
  simp [BitVec.getLsbD_extractLsb', placeField_getLsbD, hi, inWord, -BitVec.getLsbD_eq_getElem]

/-- A field leaves 0 in bits that it does not reach. -/
theorem extract_placeField_apart {n low start len : Nat} (v : BitVec n) (apart : low + n ≤ start ∨ start + len ≤ low) :
    (placeField low v).extractLsb' start len = 0 := by
  apply BitVec.eq_of_getLsbD_eq
  intro i hi
  rw [BitVec.getLsbD_extractLsb', placeField_getLsbD]
  obtain above | below := apart
  · have past : n ≤ start + i - low := by omega
    simp [BitVec.getLsbD_of_ge v _ past]
  · have before : start + i < low := by omega
    simp [before]

/-- Packing and unpacking RES (R103). -/
theorem Res.ofWord_word (r : Res) : Res.ofWord r.word = r := by
  obtain ⟨valid, kind, signEmpty, signChar, valOl, valMant, valScale, pfx, mode, status, barRaw⟩ := r
  simp (disch := omega) [Res.ofWord, Res.word, placeField_getLsbD, BitVec.extractLsb'_or, extract_placeField,
    extract_placeField_apart, -BitVec.getLsbD_eq_getElem]

/-- No field reaches the reserved bits 63:54 (R103). -/
theorem Res.word_reserved (r : Res) : r.word.extractLsb' 54 10 = 0 := by
  simp (disch := omega) [Res.word, BitVec.extractLsb'_or, extract_placeField_apart]

/-- Settles O42: each field is the same field of the unpacked word. -/
theorem resWordLayout : Obligations.ResWordLayout := by
  intro r
  have unpacked {α : Type} (field : Res → α) : field (Res.ofWord r.word) = field r := congrArg field r.ofWord_word
  refine ⟨unpacked Res.valid, unpacked Res.kind, unpacked Res.signEmpty, unpacked Res.signChar, unpacked Res.valOl,
    unpacked Res.valMant, unpacked Res.valScale, unpacked Res.pfx, unpacked Res.mode, unpacked Res.status,
    unpacked Res.barRaw, r.word_reserved, r.ofWord_word, ?_⟩
  simp [readResWord, r.word_reserved, r.ofWord_word]

end Sys2Proof.Machine
end

section
/-! SUPPORT. What no command and no row touches, and the order of transactions: one edge runs one command, and the last one decides RES. -/

namespace Sys2Proof.Machine

/-! ### Every instruction writes RES alone -/

/-- An outcome that, when it is a next state, is the state `s` with another RES. -/
def WritesResAlone (s : State) (outcome : Result) : Prop := ∀ t, outcome = .next t → t = s.withRes t.res

section
variable (s : State)

/-- The shape of an instruction that changes nothing. -/
theorem writesResAlone_next_self : WritesResAlone s (.next s) := by
  rintro _ ⟨⟩
  rfl

/-- The shape of an instruction that always writes. -/
theorem writesResAlone_next_withRes (r : Res) : WritesResAlone s (.next (s.withRes r)) := by
  rintro _ ⟨⟩
  rfl

/-- The shape of a conditional row (R512 to R527, R600 to R607). -/
theorem writesResAlone_writeIf (c : Bool) (g : Res → Res) : WritesResAlone s (writeIf c g s) := by
  intro t next
  rw [writeIf_next next]
  rfl

/-- The shape of a check (R402 to R406): the exception or nothing. -/
theorem writesResAlone_check (c : Prop) [Decidable c] (kind : BitVec 2) :
    WritesResAlone s (if c then raiseReject kind s else .next s) := by
  split
  · exact writesResAlone_next_withRes s _
  · exact writesResAlone_next_self s

/-- VAL_NUM writes the mantissa or faults (R603, R706). -/
theorem writesResAlone_execValNum (f1 f2 f3 f4 : Byte) : WritesResAlone s (execValNum f1 f2 f3 f4 s) := by
  unfold execValNum
  split
  · exact writesResAlone_next_withRes s _
  · exact nofun

/-- UNIT writes nothing or faults (R528, U11). -/
theorem writesResAlone_execUnit : WritesResAlone s (execUnit s) := by
  unfold execUnit
  split
  · exact writesResAlone_next_self s
  · exact nofun

/-- The block performs no write to any address space (R205): each instruction has one of the shapes above. -/
theorem exec_writesResAlone (i : Instr) : WritesResAlone s (exec i s) := by
  cases i
  case decode len f =>
    rw [exec_decode_eq]
    exact writesResAlone_next_withRes s _
  case reset | flagBpn | flagHold | flagRel | flagAc | flagDc | flagAuto | flagBatt | flagApo | flagMin | flagMax | barRaw =>
    exact writesResAlone_next_withRes s _
  case idle => exact writesResAlone_next_self s
  case rejLen | rejEncSign | rejEncDp | rejEncDigit => exact writesResAlone_check s _ _
  case valNum => exact writesResAlone_execValNum s _ _ _ _
  case unit => exact writesResAlone_execUnit s
  case valOl | signEmpty | signVerbatim | dpNone | dp1 | dp2 | dp3Plus | pfxNone | pfxM | pfxKilo | pfxMilli | pfxMicro
      | pfxNano | modeNone | modeDegF | modeDegC | modeFarad | modeHz | modeHfe | modeOhm | modeA | modeV =>
    unfold exec
    exact writesResAlone_writeIf s _ _

end

/-- Settles O16: the state after is the state before with another RES, whose other fields are read off. -/
theorem onlyResIsWritten : Obligations.OnlyResIsWritten := by
  intro i s t next
  rw [exec_writesResAlone s i t next]
  exact ⟨rfl, rfl, rfl, fun _ => rfl⟩

/-! ### The host's script and the edges it presents -/

/-- The table test of a command is met by every operand (R301). -/
theorem decodeEdge_wellFormed (e : Edge) : (decodeEdge e).WellFormed := by
  rw [decodeEdge_eq]
  split
  · trivial
  · split <;> trivial

/-- Every edge, well timed or not, puts the script's next levels on the ports (R318, log 1). -/
theorem step_presents {s : State} {e : Edge} {es : List Edge} (script : s.script = e :: es) :
    ∃ t, step s = .next t ∧ t.ports = e ∧ t.script = es := by
  obtain ⟨-, r, -, next⟩ | ⟨-, next⟩ := step_next s
  · exact ⟨_, next, by simp [State.advance_cons (s := s.withRes r) script]⟩
  · exact ⟨_, next, by simp [State.advance_cons (s := s.unstableEdge) script]⟩

/-- A well-timed DECODE writes the whole of RES from its own inputs (R208, R301). -/
theorem step_of_decode {s : State} (stable : s.ports.stable = true) (rst : s.ports.rst = false)
    (start : s.ports.start = true) :
    ∃ t, step s = .next t ∧ t.res = decodedRes s.ports.inLen s.ports.inFrame :=
  ⟨_, step_of_stable stable, by simp [commandRes, rst, start]⟩

/-- A run of one edge and more is the run from the state after that edge. -/
theorem core_run_succ {s t : State} (next : step s = .next t) (k : Nat) : core.run (k + 1) s = core.run k t := by
  have coreNext : core.step s = .next t := next
  simp only [Host.Core.run, coreNext]

/-- Each presentation of the history takes one edge, whatever it does to RES; one more edge then runs the DECODE (R208). -/
theorem run_to_decode {e : Edge} (stable : e.stable = true) (rst : e.rst = false) (start : e.start = true)
    (es : List Edge) (s : State) (script : s.script = es ++ [e]) :
    ∃ t : State, core.run (es.length + 2) s = .next t ∧ t.res = decodedRes e.inLen e.inFrame := by
  induction es generalizing s with
  | nil =>
    obtain ⟨t, next, rfl, -⟩ := step_presents script
    obtain ⟨u, decoded, result⟩ := step_of_decode stable rst start
    exact ⟨u, (core_run_succ next 1).trans (core_run_succ decoded 0), result⟩
  | cons e' es ih =>
    obtain ⟨t, next, -, rest⟩ := step_presents script
    obtain ⟨u, run, result⟩ := ih t rest
    exact ⟨u, (core_run_succ next _).trans run, result⟩

/-- Settles O49, by induction on the history: from its last state DECODE writes what it writes from the reset state. -/
theorem lastTransactionDecidesRes : Obligations.LastTransactionDecidesRes := by
  intro s es e script stable rst start
  obtain ⟨t, run, result⟩ := run_to_decode stable rst start es s script
  exact ⟨t, _, run, exec_decode_eq .., result⟩

/-- Settles O2: the command writes RES alone, and the host's next presentation leaves RES as the command wrote it. -/
theorem stepRunsTheDecodedCommand : Obligations.StepRunsTheDecodedCommand := by
  intro s stable
  refine ⟨decodeEdge_wellFormed s.ports, _, _, exec_decodeEdge_eq .., step_of_stable stable, by simp, by simp, ?_, ?_⟩
  · intro script
    simp [State.advance_withRes, State.advance_nil script, script]
  · intro e es script
    simp [State.advance_withRes, State.advance_cons script]

end Sys2Proof.Machine
end

section
/-! SUPPORT. Decode and encode: the control words, the order of the frame decode map, and the rows that it selects. -/

namespace Sys2Proof.Machine

/-! ### The control word -/

/-- Settles O1: the two bits of CTRL, and the command by the order of `decodeEdge_eq`. -/
theorem controlWordSelectsCommand : Obligations.ControlWordSelectsCommand := by
  intro e
  refine ⟨?_, ?_, fun rst => ⟨?_, fun s => rfl⟩, fun rst start => ?_, fun rst start => ?_⟩
  · cases h : e.rst <;> cases h' : e.start <;> simp [ctrlWord, h, h']
  · cases h : e.rst <;> cases h' : e.start <;> simp [ctrlWord, h, h']
  · simp [decodeEdge_eq, rst]
  · simp [decodeEdge_eq, rst, start]
  · simp [decodeEdge_eq, rst, start]

/-- Settles O4: the decoder evaluates on each written word. -/
theorem writtenWordsDecode : Obligations.WrittenWordsDecode := by
  unfold Obligations.WrittenWordsDecode
  decide

/-- Every command's code is read back as the command. -/
theorem decodeCommand_of_encode {i : Instr} {ctrl : BitVec 2} {len : Byte} {f : Frame}
    (code : encode i = .command ctrl len f) : decodeCommand ctrl len f = i := by
  cases i <;> cases code
  case reset.refl start => cases start <;> rfl
  case decode.refl | idle.refl => rfl

/-- Every control word is the code of the command that it selects. -/
theorem encode_decodeCommand (ctrl : BitVec 2) (len : Byte) (f : Frame) :
    ∃ len' f', encode (decodeCommand ctrl len f) = .command ctrl len' f' := by
  obtain rfl | rfl | rfl | rfl : ctrl = 0b00 ∨ ctrl = 0b01 ∨ ctrl = 0b10 ∨ ctrl = 0b11 := by
    revert ctrl; decide
  all_goals exact ⟨_, _, rfl⟩

/-- Settles O5: by the three commands, and by the four control words. -/
theorem commandCodesRoundTrip : Obligations.CommandCodesRoundTrip :=
  ⟨fun _ _ _ _ => decodeCommand_of_encode, encode_decodeCommand⟩

/-! ### The order of the frame decode map -/

theorem hasOverflow_iff (f : Frame) :
    HasOverflow f ↔ isOverflow (frameByte f 1) (frameByte f 2) (frameByte f 3) (frameByte f 4) = true :=
  (isOverflow_iff ..).symm

theorem hasDigits_iff (f : Frame) :
    HasDigits f ↔ areDigits (frameByte f 1) (frameByte f 2) (frameByte f 3) (frameByte f 4) = true :=
  (areDigits_iff ..).symm

/-- Settles O8: the checks of `classify` in their order; each failed check decides the class and the others do not matter. -/
theorem frameDecodeMapOrder : Obligations.FrameDecodeMapOrder := by
  intro len f
  simp only [classify, ← BitVec.not_le, ← isChar_iff, ← isDigit_iff, hasOverflow_iff, hasDigits_iff]
  by_cases length : len = 14#8
  · by_cases sign : isChar (frameByte f 0)
    · by_cases point : isDigit (frameByte f 6)
      · by_cases overflow : isOverflow (frameByte f 1) (frameByte f 2) (frameByte f 3) (frameByte f 4)
        · simp [length, sign, point, overflow, overflow_not_digits overflow]
        · by_cases digits : areDigits (frameByte f 1) (frameByte f 2) (frameByte f 3) (frameByte f 4) <;>
            simp [length, sign, point, overflow, digits]
      · simp [length, sign, point]
    · simp [length, sign]
  · simp [length]

end Sys2Proof.Machine
end

section
/-! SUPPORT. The rows of the frame decode table that the decode map selects: those whose table test their bytes meet. -/

namespace Sys2Proof.Machine

/-- Of the rows of a part of the table, the decode map selects exactly those whose test holds (R315). -/
def SelectsByTest (selected table : List Instr) : Prop := ∀ i, i ∈ selected ↔ i ∈ table ∧ i.WellFormed

theorem SelectsByTest.append {selected table selected' table' : List Instr} (part : SelectsByTest selected table)
    (rest : SelectsByTest selected' table') : SelectsByTest (selected ++ selected') (table ++ table') := by
  intro i
  rw [List.mem_append, List.mem_append, part i, rest i, or_and_right]

theorem selectsByTest_all {table : List Instr} (tests : ∀ i ∈ table, i.WellFormed) : SelectsByTest table table :=
  fun i => (and_iff_left_of_imp (tests i)).symm

theorem selectsByTest_singleton {i : Instr} (test : i.WellFormed) : SelectsByTest [i] [i] :=
  selectsByTest_all (List.forall_mem_singleton.2 test)

theorem selectsByTest_pair {i j : Instr} (test : i.WellFormed) (test' : j.WellFormed) : SelectsByTest [i, j] [i, j] :=
  (selectsByTest_singleton test).append (selectsByTest_singleton test')

/-- A row of its own is selected when its test holds. -/
theorem selectsByTest_ite {i : Instr} {c : Prop} [Decidable c] (test : c ↔ i.WellFormed) :
    SelectsByTest (if c then [i] else []) [i] := by
  intro j
  split
  · rename_i holds
    exact selectsByTest_singleton (test.1 holds) j
  · rename_i fails
    simp only [List.not_mem_nil, List.mem_singleton, false_iff]
    rintro ⟨rfl, holds⟩
    exact fails (test.2 holds)

/-- Of rows whose tests exclude each other, one is selected. -/
theorem selectsByTest_one {row : Instr} {table : List Instr} (inTable : row ∈ table)
    (test : ∀ i ∈ table, i.WellFormed ↔ i = row) : SelectsByTest [row] table := by
  intro i
  rw [List.mem_singleton]
  constructor
  · rintro rfl
    exact ⟨inTable, (test i inTable).2 rfl⟩
  · exact fun ⟨mem, holds⟩ => (test i mem).1 holds

/-! ### The parts of the table -/

/-- The flag rows (R501 to R510). -/
def flagTable (s1 s2 : Byte) : List Instr :=
  [.flagBpn s1, .flagHold s1, .flagRel s1, .flagAc s1, .flagDc s1, .flagAuto s1, .flagBatt s2, .flagApo s2, .flagMin s2,
    .flagMax s2]

theorem and_twoPow_eq_iff (b : Byte) {k : Nat} (hk : k < 8) :
    b.getLsbD k = true ↔ b &&& BitVec.twoPow 8 k = BitVec.twoPow 8 k := by
  have notZero : 0#8 ≠ BitVec.twoPow 8 k := by
    intro zero
    simpa [hk] using congrArg (·.getLsbD k) zero
  rw [BitVec.and_twoPow]
  cases b.getLsbD k <;> simp [notZero]

theorem flagRows_selectsByTest (s1 s2 : Byte) : SelectsByTest (flagRows s1 s2) (flagTable s1 s2) := by
  have test (b : Byte) (k : Fin 8) : b.getLsbD k = true ↔ b &&& BitVec.twoPow 8 k = BitVec.twoPow 8 k :=
    and_twoPow_eq_iff b k.2
  exact (selectsByTest_ite (test s1 0)).append (selectsByTest_ite (test s1 1)) |>.append (selectsByTest_ite (test s1 2))
    |>.append (selectsByTest_ite (test s1 3)) |>.append (selectsByTest_ite (test s1 4))
    |>.append (selectsByTest_ite (test s1 5)) |>.append (selectsByTest_ite (test s2 2))
    |>.append (selectsByTest_ite (test s2 3)) |>.append (selectsByTest_ite (test s2 4))
    |>.append (selectsByTest_ite (test s2 5))

/-- The rows of the decimal point (R604 to R607). -/
def dpTable (f6 : Byte) : List Instr := [.dpNone f6, .dp1 f6, .dp2 f6, .dp3Plus f6]

theorem dpRow_selectsByTest {f6 : Byte} (digit : inDigitRange f6) : SelectsByTest [dpRow f6] (dpTable f6) := by
  apply selectsByTest_one
  · revert f6; decide
  · simp only [dpTable, List.forall_mem_cons, List.not_mem_nil, false_imp_iff, implies_true, and_true]
    revert f6; decide

/-- The rows of PREFIX_DECODE (R512 to R516). -/
def pfxTable (s3 : Byte) : List Instr := [.pfxNone s3, .pfxM s3, .pfxKilo s3, .pfxMilli s3, .pfxMicro s3]

theorem pfxRow_selectsByTest (s3 : Byte) : SelectsByTest [pfxRow s3] (pfxTable s3) := by
  apply selectsByTest_one
  · revert s3; decide
  · simp only [pfxTable, List.forall_mem_cons, List.not_mem_nil, false_imp_iff, implies_true, and_true]
    revert s3; decide

/-- The rows of MODE_DECODE (R518 to R526). -/
def modeTable (s4 : Byte) : List Instr :=
  [.modeNone s4, .modeDegF s4, .modeDegC s4, .modeFarad s4, .modeHz s4, .modeHfe s4, .modeOhm s4, .modeA s4, .modeV s4]

theorem modeRow_selectsByTest (s4 : Byte) : SelectsByTest [modeRow s4] (modeTable s4) := by
  apply selectsByTest_one
  · revert s4; decide
  · simp only [modeTable, List.forall_mem_cons, List.not_mem_nil, false_imp_iff, implies_true, and_true]
    revert s4; decide

theorem nanoRow_selectsByTest (s2 s4 : Byte) : SelectsByTest (nanoRow s2 s4) [.pfxNano s2 s4] :=
  selectsByTest_ite and_comm

/-- The rows that every accepted frame reaches (R529, R610). -/
def acceptTable (f : Frame) : List Instr :=
  flagTable (frameByte f 7) (frameByte f 8) ++ (pfxTable (frameByte f 9) ++ modeTable (frameByte f 10)) ++
  [.pfxNano (frameByte f 8) (frameByte f 10)] ++ [.unit, .barRaw (frameByte f 11)]

theorem acceptRows_selectsByTest (f : Frame) : SelectsByTest (acceptRows f) (acceptTable f) :=
  (flagRows_selectsByTest _ _).append ((pfxRow_selectsByTest _).append (modeRow_selectsByTest _))
    |>.append (nanoRow_selectsByTest _ _) |>.append (selectsByTest_pair trivial trivial)

/-- The frame decode table on the bytes of a presentation: each of its 39 rows with the operands its rule names, in the order of the
decode map. Every row but REJ_LEN asks for 14 bytes (R315). -/
def frameTable (len : Byte) (f : Frame) : List Instr :=
  .rejLen len :: if len = 14 then
    [.rejEncSign (frameByte f 0), .rejEncDp (frameByte f 6),
      .rejEncDigit (frameByte f 1) (frameByte f 2) (frameByte f 3) (frameByte f 4),
      .valOl (frameByte f 1) (frameByte f 2) (frameByte f 3) (frameByte f 4),
      .signEmpty (frameByte f 1) (frameByte f 2) (frameByte f 3) (frameByte f 4),
      .valNum (frameByte f 1) (frameByte f 2) (frameByte f 3) (frameByte f 4),
      .signVerbatim (frameByte f 0) (frameByte f 1) (frameByte f 2) (frameByte f 3) (frameByte f 4)] ++
    dpTable (frameByte f 6) ++ acceptTable f
  else []

/-- A presentation carries the code of exactly the rows of the table on its own bytes. -/
theorem mem_frameTable_iff (i : Instr) (len : Byte) (f : Frame) : i ∈ frameTable len f ↔ (encode i).carriedBy len f := by
  by_cases length : len = 14#8
  · cases i <;>
      simp [length, frameTable, acceptTable, flagTable, dpTable, pfxTable, modeTable, encode, Code.carriedBy, eq_comm]
  · cases i <;> simp [length, Ne.symm length, frameTable, encode, Code.carriedBy, eq_comm]

/-- Byte 0 is a character exactly when its bit 7 is clear (R404). -/
theorem sign_bit_clear_iff (f0 : Byte) : f0 &&& 0x80 = 0 ↔ f0 ≤ 0x7F := by
  revert f0; decide

theorem sign_bit_set_iff (f0 : Byte) : f0 &&& 0x80 = 0x80 ↔ 0x7F < f0 := by
  revert f0; decide

/-- The decode map selects, of the rows that it reaches at the step where a presentation stops, those whose test holds. -/
theorem decodeRows_selectsByTest (len : Byte) (f : Frame) :
    SelectsByTest (decodeRows len f) ((frameTable len f).filter (classify len f ∈ reachedIn ·)) := by
  obtain ⟨rejLen, rejSign, rejDp, rejDigit, overflow, numeric⟩ := frameDecodeMapOrder len f
  unfold decodeRows
  cases step : classify len f
  case rejLen =>
    have length : len ≠ 14#8 := rejLen.1 step
    simpa [frameTable, length, reachedIn] using selectsByTest_singleton (i := .rejLen len) length
  case rejSign =>
    obtain ⟨rfl, sign⟩ := rejSign.1 step
    exact selectsByTest_singleton ((sign_bit_set_iff _).2 sign)
  case rejDp =>
    obtain ⟨rfl, -, point⟩ := rejDp.1 step
    exact selectsByTest_singleton ((not_and_or.1 point).imp BitVec.not_le.1 BitVec.not_le.1)
  case rejDigit =>
    obtain ⟨rfl, -, -, digitField⟩ := rejDigit.1 step
    exact selectsByTest_singleton digitField
  case overflow =>
    obtain ⟨rfl, -, -, pattern⟩ := overflow.1 step
    exact (selectsByTest_pair pattern pattern).append (acceptRows_selectsByTest f)
  case numeric =>
    obtain ⟨rfl, sign, point, digits⟩ := numeric.1 step
    have noOverflow : ¬ HasOverflow f := fun overflow => overflow.not_hasDigits digits
    have signTest := And.intro ((sign_bit_clear_iff _).2 sign) noOverflow
    exact (selectsByTest_pair digits signTest).append (dpRow_selectsByTest point) |>.append (acceptRows_selectsByTest f)

/-- Settles O6: the table on the presentation's bytes, the rows reached at its step, and the test that picks among them. -/
theorem rowsSelectedExactlyByTheTable : Obligations.RowsSelectedExactlyByTheTable := by
  intro i len f
  rw [decodeRows_selectsByTest len f i, List.mem_filter, mem_frameTable_iff, decide_eq_true_iff, and_comm]

/-! ### The byte tests of opcode_table.json -/

/-- The table's byte tests hold of the code of every well-formed instruction, one law per constructor. -/
theorem tableBytes_statement (i : Instr) : Laws.TableBytes.Statement i := by
  open Laws.TableBytes in
  cases i
  exacts [reset _, decode _ _, idle, rejLen _, rejEncSign _, rejEncDp _, rejEncDigit _ _ _ _, valOl _ _ _ _,
    signEmpty _ _ _ _, signVerbatim _ _ _ _ _, valNum _ _ _ _, dpNone _, dp1 _, dp2 _, dp3Plus _, flagBpn _, flagHold _,
    flagRel _, flagAc _, flagDc _, flagAuto _, flagBatt _, flagApo _, flagMin _, flagMax _, pfxNone _, pfxM _, pfxKilo _,
    pfxMilli _, pfxMicro _, pfxNano _ _, modeNone _, modeDegF _, modeDegC _, modeFarad _, modeHz _, modeHfe _, modeOhm _,
    modeA _, modeV _, unit, barRaw _]

/-- A row's code fixes every frame byte that its table test reads. -/
theorem tableBytes_encoded {i : Instr} {len : Byte} {bytes : List (Fin 14 × Byte)} (code : encode i = .row len bytes) :
    ∀ p ∈ tableBytes i, ∃ q ∈ bytes, q.1 = p.1 := by
  cases i <;> cases code <;> simp [tableBytes]

/-- Settles O7: a selected row is well-formed and its code is carried, so the laws of the table's byte tests apply. -/
theorem selectedRowsMeetTheTableTests : Obligations.SelectedRowsMeetTheTableTests := by
  intro len f i selected p tested
  obtain ⟨wellFormed, carried, -⟩ := (rowsSelectedExactlyByTheTable i len f).1 selected
  cases code : encode i with
  | command ctrl l g => simp [code, Code.carriedBy] at carried
  | row l bytes =>
    rw [code] at carried
    obtain ⟨-, bytesOf⟩ := carried
    obtain ⟨q, inCode, sameByte⟩ := tableBytes_encoded code p tested
    rw [← sameByte, bytesOf q inCode]
    exact tableBytes_statement i wellFormed l bytes code p tested q inCode sameByte

end Sys2Proof.Machine
end

section
/-! SUPPORT. Bytes and bits that no rule reads: DECODE gives the same RES whatever they hold. -/

namespace Sys2Proof.Machine

/-- The flags read bits 5:0 of status byte 1 and bits 5:2 of status byte 2 (R314). -/
theorem statusDecode_masked (s1 s2 : Byte) : statusDecode (s1 &&& 0x3F) (s2 &&& 0x3E) = statusDecode s1 s2 := by
  have entryMasked : ∀ e ∈ romStatus, flagSet e (s1 &&& 0x3F) (s2 &&& 0x3E) = flagSet e s1 s2 := by
    simp [romStatus, flagSet, BitVec.and_assoc]
  apply BitVec.eq_of_getLsbD_eq
  intro i hi
  rw [statusDecode_getLsbD _ _ (List.getElem?_eq_getElem hi), statusDecode_getLsbD _ _ (List.getElem?_eq_getElem hi)]
  exact entryMasked _ (List.getElem_mem hi)

/-- PREFIX_DECODE reads bits 7:4 of status byte 3 (R314). -/
theorem pfxDecode_masked (s3 : Byte) : pfxDecode (s3 &&& 0xF0) = pfxDecode s3 := by
  simp [pfxDecode, lastMatch, romPfx, BitVec.and_assoc]

/-- The override reads bit 1 of status byte 2 (R314). -/
theorem nanoOverride_masked (pfx : BitVec 3) (mode : BitVec 4) (s2 : Byte) :
    nanoOverride pfx mode (s2 &&& 0x3E) = nanoOverride pfx mode s2 := by
  have masked : s2 &&& 0x3E &&& nanoMask = s2 &&& nanoMask := BitVec.and_assoc ..
  rw [nanoOverride, masked, nanoOverride]

section
variable {f g : Frame} (alike : ReadAlike f g)
include alike

theorem ReadAlike.classify_eq (len : Byte) : classify len g = classify len f := by
  simp only [classify, alike.sign, alike.point, alike.digit1, alike.digit2, alike.digit3, alike.digit4]

theorem ReadAlike.acceptedRes_eq (empty : Bool) (char : Byte) (ol : Bool) (mant : BitVec 14) (scale : BitVec 2) :
    acceptedRes empty char ol mant scale g =
      { acceptedRes empty char ol mant scale f with barRaw := frameByte g 11 } := by
  have status : statusDecode (frameByte g 7) (frameByte g 8) = statusDecode (frameByte f 7) (frameByte f 8) := by
    rw [← statusDecode_masked, ← alike.status1, ← alike.status2, statusDecode_masked]
  have pfx : pfxDecode (frameByte g 9) = pfxDecode (frameByte f 9) := by
    rw [← pfxDecode_masked, ← alike.status3, pfxDecode_masked]
  have nano (p : BitVec 3) (m : BitVec 4) : nanoOverride p m (frameByte g 8) = nanoOverride p m (frameByte f 8) := by
    rw [← nanoOverride_masked, ← alike.status2, nanoOverride_masked]
  simp only [acceptedRes, status, pfx, nano, alike.status4]

/-- The bar byte apart, RES is the same, and a rejected frame leaves no bar byte either (R314, R410). -/
theorem ReadAlike.decodedRes_eq (len : Byte) :
    decodedRes len g = { decodedRes len f with barRaw := (decodedRes len g).barRaw } ∧
    (frameByte f 11 = frameByte g 11 → decodedRes len g = decodedRes len f) := by
  simp only [decodedRes, alike.classify_eq, alike.acceptedRes_eq, alike.sign, alike.point, alike.digit1, alike.digit2,
    alike.digit3, alike.digit4]
  cases classify len f
  case overflow | numeric => exact ⟨rfl, fun bar => by rw [← bar]; rfl⟩
  all_goals exact ⟨rfl, fun _ => rfl⟩

end

/-- Settles O13: the RES of the two frames, by the masks under which the rules read their bytes. -/
theorem ignoredBitsHaveNoEffect : Obligations.IgnoredBitsHaveNoEffect := by
  intro len f g s alike
  obtain ⟨apartFromBar, sameBar⟩ := alike.decodedRes_eq len
  refine ⟨_, _, exec_decode_eq .., exec_decode_eq .., fun bar => by rw [sameBar bar], ?_⟩
  rw [State.withRes_res, State.withRes_res, State.withRes_withRes, ← apartFromBar]

end Sys2Proof.Machine
end

section
/-! SUPPORT. DECODE as the run of its rows: each group of rows writes its field of RES, and the groups run one after the other. -/

namespace Sys2Proof.Machine

/-! ### Runs of rows -/

/-- From every state whose RES is `r` the rows complete, with RES `r'` and nothing else changed. -/
def Runs (rows : List Instr) (r r' : Res) : Prop := ∀ s : State, runRows rows (s.withRes r) = .next (s.withRes r')

theorem runRows_append {rows : List Instr} {s t : State} (first : runRows rows s = .next t) (rest : List Instr) :
    runRows (rows ++ rest) s = runRows rest t := by
  induction rows generalizing s with
  | nil =>
    obtain rfl : s = t := Host.Outcome.next.inj first
    rfl
  | cons i rows ih =>
    simp only [List.cons_append, runRows] at first ⊢
    cases next : exec i s with
    | next u =>
      rw [next] at first
      exact ih first
    | fault | refused => simp [next] at first

theorem Runs.append {rows rest : List Instr} {r r' r'' : Res} (first : Runs rows r r') (second : Runs rest r' r'') :
    Runs (rows ++ rest) r r'' :=
  fun s => (runRows_append (first s) rest).trans (second s)

/-- A row that answers a next state with RES alone changed runs as it executes. -/
theorem runs_row {i : Instr} {r r' : Res} (row : ∀ s : State, exec i (s.withRes r) = .next (s.withRes r')) :
    Runs [i] r r' := by
  intro s
  rw [runRows, row]
  rfl

/-- A row whose test holds writes its field. -/
theorem writeIf_of_test {c : Bool} (test : c = true) (g : Res → Res) (s : State) :
    writeIf c g s = .next (s.withRes (g s.res)) := by
  rw [test, writeIf_true]

/-! ### The status flags -/

/-- RES.STATUS after the row of flag `i`, which runs only when the flag's bit `b` is set. -/
def raiseFlag (status : BitVec 10) (i : Nat) (b : Bool) : BitVec 10 := if b then writeFlag status i true else status

theorem raiseFlag_getLsbD (status : BitVec 10) (i : Nat) (b : Bool) {j : Nat} (hj : j < 10) :
    (raiseFlag status i b).getLsbD j = if j = i then b || status.getLsbD j else status.getLsbD j := by
  cases b <;> simp [raiseFlag, writeFlag_getLsbD _ _ _ hj]

theorem runs_flagRow (i : Instr) (n : Nat) (b : Bool) (row : ∀ s, exec i s = writeStatusFlag n b s) (r : Res)
    (status : BitVec 10) :
    Runs (if b then [i] else []) (r.writeStatus status) (r.writeStatus (raiseFlag status n b)) := by
  cases b with
  | false => exact fun _ => rfl
  | true => exact runs_row fun s => row _

/-- On cleared flags the selected flag rows do what STATUS_DECODE does (R500). -/
theorem runs_flagRows (s1 s2 : Byte) (r : Res) :
    Runs (flagRows s1 s2) (r.writeStatus 0) (r.writeStatus (statusDecode s1 s2)) := by
  have status : statusDecode s1 s2 = raiseFlag (raiseFlag (raiseFlag (raiseFlag (raiseFlag (raiseFlag (raiseFlag
      (raiseFlag (raiseFlag (raiseFlag 0 0 (s1.getLsbD 0)) 1 (s1.getLsbD 1)) 2 (s1.getLsbD 2)) 3 (s1.getLsbD 3))
      4 (s1.getLsbD 4)) 5 (s1.getLsbD 5)) 6 (s2.getLsbD 2)) 7 (s2.getLsbD 3)) 8 (s2.getLsbD 4)) 9 (s2.getLsbD 5) := by
    apply BitVec.eq_of_getLsbD_eq
    intro i hi
    by_cases first : i < 6
    · rw [statusDecode_getLsbD_byte7 s1 s2 first]
      interval_cases i <;> simp [raiseFlag_getLsbD, -BitVec.getLsbD_eq_getElem]
    · obtain ⟨k, rfl⟩ := Nat.exists_eq_add_of_le' (not_lt.1 first)
      have second : k < 4 := by omega
      rw [statusDecode_getLsbD_byte8 s1 s2 second]
      interval_cases k <;> simp [raiseFlag_getLsbD, -BitVec.getLsbD_eq_getElem]
  rw [status]
  exact (runs_flagRow (.flagBpn s1) 0 (s1.getLsbD 0) (fun _ => rfl) r _)
    |>.append (runs_flagRow (.flagHold s1) 1 (s1.getLsbD 1) (fun _ => rfl) r _)
    |>.append (runs_flagRow (.flagRel s1) 2 (s1.getLsbD 2) (fun _ => rfl) r _)
    |>.append (runs_flagRow (.flagAc s1) 3 (s1.getLsbD 3) (fun _ => rfl) r _)
    |>.append (runs_flagRow (.flagDc s1) 4 (s1.getLsbD 4) (fun _ => rfl) r _)
    |>.append (runs_flagRow (.flagAuto s1) 5 (s1.getLsbD 5) (fun _ => rfl) r _)
    |>.append (runs_flagRow (.flagBatt s2) 6 (s2.getLsbD 2) (fun _ => rfl) r _)
    |>.append (runs_flagRow (.flagApo s2) 7 (s2.getLsbD 3) (fun _ => rfl) r _)
    |>.append (runs_flagRow (.flagMin s2) 8 (s2.getLsbD 4) (fun _ => rfl) r _)
    |>.append (runs_flagRow (.flagMax s2) 9 (s2.getLsbD 5) (fun _ => rfl) r _)

/-! ### The unit rows -/

/-- The row of status byte 3, its test and its code are those of the highest set bit among bits 7 to 4 (R511). -/
theorem pfxRow_cases (s3 : Byte) :
    (pfxRow s3 = .pfxNone s3 ∧ s3 &&& 0xF0 = 0x00 ∧ pfxDecode s3 = 0) ∨
    (pfxRow s3 = .pfxM s3 ∧ s3 &&& 0xF0 = 0x10 ∧ pfxDecode s3 = 1) ∨
    (pfxRow s3 = .pfxKilo s3 ∧ s3 &&& 0xE0 = 0x20 ∧ pfxDecode s3 = 2) ∨
    (pfxRow s3 = .pfxMilli s3 ∧ s3 &&& 0xC0 = 0x40 ∧ pfxDecode s3 = 3) ∨
    (pfxRow s3 = .pfxMicro s3 ∧ s3 &&& 0x80 = 0x80 ∧ pfxDecode s3 = 4) := by
  revert s3; decide

theorem runs_pfxRow (s3 : Byte) (r : Res) : Runs [pfxRow s3] r (r.writePfx (pfxDecode s3)) := by
  obtain h | h | h | h | h := pfxRow_cases s3
  all_goals
    obtain ⟨row, test, code⟩ := h
    rw [row, code]
    exact runs_row fun s => writeIf_of_test (beq_iff_eq.2 test) (·.writePfx _) (s.withRes r)

/-- The row of status byte 4, its test and its code are those of the highest set bit (R517). -/
theorem modeRow_cases (s4 : Byte) :
    (modeRow s4 = .modeNone s4 ∧ s4 &&& 0xFF = 0x00 ∧ modeDecode s4 = 0) ∨
    (modeRow s4 = .modeDegF s4 ∧ s4 &&& 0xFF = 0x01 ∧ modeDecode s4 = 1) ∨
    (modeRow s4 = .modeDegC s4 ∧ s4 &&& 0xFE = 0x02 ∧ modeDecode s4 = 2) ∨
    (modeRow s4 = .modeFarad s4 ∧ s4 &&& 0xFC = 0x04 ∧ modeDecode s4 = 3) ∨
    (modeRow s4 = .modeHz s4 ∧ s4 &&& 0xF8 = 0x08 ∧ modeDecode s4 = 4) ∨
    (modeRow s4 = .modeHfe s4 ∧ s4 &&& 0xF0 = 0x10 ∧ modeDecode s4 = 5) ∨
    (modeRow s4 = .modeOhm s4 ∧ s4 &&& 0xE0 = 0x20 ∧ modeDecode s4 = 6) ∨
    (modeRow s4 = .modeA s4 ∧ s4 &&& 0xC0 = 0x40 ∧ modeDecode s4 = 7) ∨
    (modeRow s4 = .modeV s4 ∧ s4 &&& 0x80 = 0x80 ∧ modeDecode s4 = 8) := by
  revert s4; decide

theorem runs_modeRow (s4 : Byte) (r : Res) : Runs [modeRow s4] r (r.writeMode (modeDecode s4)) := by
  obtain h | h | h | h | h | h | h | h | h := modeRow_cases s4
  all_goals
    obtain ⟨row, test, code⟩ := h
    rw [row, code]
    exact runs_row fun s => writeIf_of_test (beq_iff_eq.2 test) (·.writeMode _) (s.withRes r)

/-- The test of PFX_n is the override's condition on the decoded mode (R527). -/
theorem nano_test_iff (s2 s4 : Byte) :
    s4 &&& 0xFC = 0x04 ∧ s2 &&& 0x02 = 0x02 ↔ modeDecode s4 = modeCodeFarad ∧ s2 &&& nanoMask ≠ 0 := by
  apply and_congr
  · revert s4; decide
  · revert s2; decide

theorem runs_nanoRow (s2 : Byte) {s4 : Byte} {r : Res} (mode : r.mode = modeDecode s4) :
    Runs (nanoRow s2 s4) r (r.writePfx (nanoOverride r.pfx r.mode s2)) := by
  unfold nanoRow nanoOverride
  rw [mode]
  by_cases test : s4 &&& 0xFC = 0x04 ∧ s2 &&& 0x02 = 0x02
  · rw [if_pos test, if_pos ((nano_test_iff s2 s4).1 test)]
    exact runs_row fun s => writeIf_of_test (by simpa using test) (·.writePfx _) (s.withRes r)
  · rw [if_neg test, if_neg (mt (nano_test_iff s2 s4).2 test)]
    exact fun _ => rfl

/-- Legal codes have a unit string (R123, R124, R528). -/
theorem unitText_ok {pfx : BitVec 3} {mode : BitVec 4} (pfxWritten : pfx.toNat < 6) (modeWritten : mode.toNat < 9) :
    ∃ text, unitText pfx mode = .ok text := by
  have pfxEntry := List.getElem?_eq_getElem (l := romPfxStr) pfxWritten
  have modeEntry := List.getElem?_eq_getElem (l := romModeStr) modeWritten
  exact ⟨_, by rw [unitText, pfxEntry, modeEntry]⟩

theorem runs_unit {r : Res} (pfxWritten : r.pfx.toNat < 6) (modeWritten : r.mode.toNat < 9) : Runs [.unit] r r := by
  obtain ⟨text, ok⟩ := unitText_ok pfxWritten modeWritten
  exact runs_row fun s => by simp [exec, execUnit, ok]

theorem runs_barRaw (f11 : Byte) (r : Res) : Runs [.barRaw f11] r (r.writeBar f11) := runs_row fun _ => rfl

/-- RES of an accepted frame before the rows that every such frame reaches: the sign and the value alone are written. -/
def valueRes (empty : Bool) (char : Byte) (ol : Bool) (mant : BitVec 14) (scale : BitVec 2) : Res :=
  { Res.opened with signEmpty := empty, signChar := char, valOl := ol, valMant := mant, valScale := scale }

/-- The rows of every accepted frame write bytes 7 to 11 as ACCEPT does, and keep the sign and the value (R407, R529). -/
theorem runs_acceptRows (f : Frame) (empty : Bool) (char : Byte) (ol : Bool) (mant : BitVec 14) (scale : BitVec 2) :
    Runs (acceptRows f) (valueRes empty char ol mant scale) (acceptedRes empty char ol mant scale f) := by
  have flags := runs_flagRows (frameByte f 7) (frameByte f 8) (valueRes empty char ol mant scale)
  have units (r : Res) := (runs_pfxRow (frameByte f 9) r).append (runs_modeRow (frameByte f 10) _)
  have bar (r : Res) (pfxWritten : r.pfx.toNat < 6) (modeWritten : r.mode.toNat < 9) :=
    (runs_unit pfxWritten modeWritten).append (runs_barRaw (frameByte f 11) r)
  exact flags.append (units _) |>.append (runs_nanoRow (frameByte f 8) rfl)
    |>.append (bar _ (nanoOverride_lt _ _ (pfxDecode_lt _)) (modeDecode_lt _))

/-! ### The value rows and the whole transaction -/

/-- The decimal-point row of a digit byte and its scale (R604 to R607, R612). -/
theorem dpRow_cases {f6 : Byte} (digit : inDigitRange f6) :
    (dpRow f6 = .dpNone f6 ∧ f6 = 0x30 ∧ scaleOf (decpos f6) = 0) ∨ (dpRow f6 = .dp1 f6 ∧ f6 = 0x31 ∧ scaleOf (decpos f6) = 3) ∨
    (dpRow f6 = .dp2 f6 ∧ f6 = 0x32 ∧ scaleOf (decpos f6) = 2) ∨
    (dpRow f6 = .dp3Plus f6 ∧ (0x33 ≤ f6 ∧ f6 ≤ 0x39) ∧ scaleOf (decpos f6) = 1) := by
  revert f6; decide

theorem runs_dpRow {f6 : Byte} (digit : inDigitRange f6) (r : Res) :
    Runs [dpRow f6] r (r.writeScale (BitVec.ofNat 2 (scaleOf (decpos f6)))) := by
  obtain h | h | h | h := dpRow_cases digit
  all_goals
    obtain ⟨row, test, scale⟩ := h
    rw [row, scale]
    exact runs_row fun s => writeIf_of_test (by simpa using test) (·.writeScale _) (s.withRes r)

theorem runs_overflowRows {f1 f2 f3 f4 : Byte} (pattern : isOverflowBytes f1 f2 f3 f4) (r : Res) :
    Runs [.valOl f1 f2 f3 f4, .signEmpty f1 f2 f3 f4] r (r.writeOverflow.writeSign true 0) := by
  have test := (isOverflow_iff ..).2 pattern
  refine Runs.append (rows := [.valOl f1 f2 f3 f4]) (r' := r.writeOverflow) (runs_row fun s => ?_) (runs_row fun s => ?_)
  · simp [exec, execValOl, test, writeIf_true]
  · simp [exec, execSignEmpty, test, writeIf_true]

theorem runs_numericRows (f0 : Byte) {f1 f2 f3 f4 f6 : Byte} (digits : areDigits f1 f2 f3 f4 = true)
    (noOverflow : isOverflow f1 f2 f3 f4 = false) (point : inDigitRange f6) (r : Res) :
    Runs [.valNum f1 f2 f3 f4, .signVerbatim f0 f1 f2 f3 f4, dpRow f6] r
      (((r.writeMant (BitVec.ofNat 14 (mantissa f1 f2 f3 f4))).writeSign false f0).writeScale
        (BitVec.ofNat 2 (scaleOf (decpos f6)))) := by
  have mant : Runs [.valNum f1 f2 f3 f4] r (r.writeMant (BitVec.ofNat 14 (mantissa f1 f2 f3 f4))) :=
    runs_row fun s => by simp [exec, execValNum, digits]
  have sign (r : Res) : Runs [.signVerbatim f0 f1 f2 f3 f4] r (r.writeSign false f0) :=
    runs_row fun s => by simp [exec, execSignVerbatim, noOverflow, writeIf_true]
  exact (mant.append (sign _)).append (runs_dpRow point _)

/-- The rows that the decode map selects leave what DECODE writes, whatever the class of the frame (R315, R407, R701). -/
theorem runs_decodeRows (len : Byte) (f : Frame) : Runs (decodeRows len f) Res.opened (decodedRes len f) := by
  obtain ⟨rejLen, rejSign, rejDp, rejDigit, overflow, numeric⟩ := frameDecodeMapOrder len f
  unfold decodeRows decodedRes
  cases step : classify len f
  case rejLen => exact runs_row fun s => if_pos (rejLen.1 step)
  case rejSign =>
    obtain ⟨-, sign⟩ := rejSign.1 step
    exact runs_row fun s => if_pos (by simpa [← Bool.not_eq_true, isChar_iff] using sign)
  case rejDp =>
    obtain ⟨-, -, point⟩ := rejDp.1 step
    rw [← isDigit_iff] at point
    exact runs_row fun s => if_pos (by simpa using point)
  case rejDigit =>
    obtain ⟨-, -, -, digitField⟩ := rejDigit.1 step
    rw [hasOverflow_iff, hasDigits_iff] at digitField
    exact runs_row fun s => if_pos (by simpa using digitField)
  case overflow =>
    obtain ⟨-, -, -, pattern⟩ := overflow.1 step
    exact (runs_overflowRows pattern _).append (runs_acceptRows f true 0 true 0 0)
  case numeric =>
    obtain ⟨-, -, point, digits⟩ := numeric.1 step
    have noOverflow : ¬ HasOverflow f := fun overflow => overflow.not_hasDigits digits
    rw [hasOverflow_iff, Bool.not_eq_true] at noOverflow
    exact (runs_numericRows (frameByte f 0) ((hasDigits_iff f).1 digits) noOverflow point _).append
      (runs_acceptRows f false _ false _ _)

/-- Settles O14: both write the same RES over the same state. -/
theorem decodeRunsItsRows : Obligations.DecodeRunsItsRows := by
  intro len f s
  have run : runTransaction len f s = .next (s.withRes (decodedRes len f)) := runs_decodeRows len f s
  exact ⟨by rw [exec_decode_eq, run], _, run⟩

end Sys2Proof.Machine
end

section
/-! SUPPORT. DECODE and IDLE on every input, and the four check rows of R402 to R406 run by themselves. -/

namespace Sys2Proof.Machine

/-! ### The check rows, in the spec's words -/

/-- The shape of a check row, turned from the bytes that fail to the bytes that pass. -/
theorem check_eq_ite_passes {failed passes : Prop} [Decidable failed] [Decidable passes] (test : failed ↔ ¬ passes)
    (kind : BitVec 2) (s : State) :
    (if failed then raiseReject kind s else .next s) = if passes then .next s else raiseReject kind s :=
  (if_congr test rfl rfl).trans (ite_not ..)

theorem exec_rejLen_eq (len : Byte) (s : State) :
    exec (.rejLen len) s = if len = 14 then .next s else raiseReject 1 s :=
  check_eq_ite_passes Iff.rfl 1 s

theorem exec_rejEncSign_eq (f0 : Byte) (s : State) :
    exec (.rejEncSign f0) s = if f0 ≤ 0x7F then .next s else raiseReject 2 s :=
  check_eq_ite_passes (by rw [← isChar_iff]; simp) 2 s

theorem exec_rejEncDp_eq (f6 : Byte) (s : State) :
    exec (.rejEncDp f6) s = if inDigitRange f6 then .next s else raiseReject 2 s :=
  check_eq_ite_passes (by simp [← isDigit_iff]) 2 s

/-- The overflow pattern and four digits pass, everything else is rejected (R406). -/
theorem exec_rejEncDigit_eq (f1 f2 f3 f4 : Byte) (s : State) :
    exec (.rejEncDigit f1 f2 f3 f4) s =
      if isOverflowBytes f1 f2 f3 f4 ∨ (inDigitRange f1 ∧ inDigitRange f2 ∧ inDigitRange f3 ∧ inDigitRange f4)
      then .next s else raiseReject 2 s :=
  check_eq_ite_passes (by simp [← isOverflow_iff, ← areDigits_iff]) 2 s

/-! ### The obligations -/

/-- Settles O11: `decodedRes` is the RES, legal and with VALID 1 for every length and frame. -/
theorem decodeAlwaysCompletes : Obligations.DecodeAlwaysCompletes := fun len f s =>
  ⟨decodedRes len f, exec_decode_eq len f s, decodedRes_valid len f, decodedRes_legal len f⟩

/-- Settles O12: `decodedRes` names no state. -/
theorem decodeDependsOnInputsOnly : Obligations.DecodeDependsOnInputsOnly := fun len f =>
  ⟨decodedRes len f, exec_decode_eq len f⟩

/-- Settles O18: each clause is one branch of its row's equation. -/
theorem characterCheckRows : Obligations.CharacterCheckRows := by
  intro s f0 f1 f2 f3 f4 f6
  have sign_iff : f0 < 0x80 ↔ f0 ≤ 0x7F := by bv_omega
  refine ⟨fun high => ?_, fun low => ?_, fun fails => ?_, fun digit => ?_, fun noOverflow noDigits => ?_,
    fun overflow => ?_, fun digit1 digit2 digit3 digit4 => ?_⟩
  · exact (exec_rejEncSign_eq f0 s).trans (if_neg (mt sign_iff.2 (BitVec.not_lt.2 high)))
  · exact (exec_rejEncSign_eq f0 s).trans (if_pos (sign_iff.1 low))
  · exact (exec_rejEncDp_eq f6 s).trans (if_neg fails)
  · exact (exec_rejEncDp_eq f6 s).trans (if_pos digit)
  · exact (exec_rejEncDigit_eq f1 f2 f3 f4 s).trans (if_neg (not_or.2 ⟨noOverflow, noDigits⟩))
  · exact (exec_rejEncDigit_eq f1 f2 f3 f4 s).trans (if_pos (.inl overflow))
  · exact (exec_rejEncDigit_eq f1 f2 f3 f4 s).trans (if_pos (.inr ⟨digit1, digit2, digit3, digit4⟩))

/-- Settles O21: a frame that passes writes an accepted RES, whatever bytes 7 to 11 hold. -/
theorem checkedFramesAreAccepted : Obligations.CheckedFramesAreAccepted := by
  intro f s passes
  obtain ⟨_, _, _, _, _, result⟩ := decodedRes_of_passes passes
  refine ⟨_, exec_decode_eq .., decodedRes_valid .., ?_⟩
  rw [State.withRes_res, result, acceptedRes]

/-- Settles O10: at a stable edge with CTRL 00 the command's RES is the one before, and the host's next levels leave it. -/
theorem idleHoldsRes : Obligations.IdleHoldsRes := by
  refine ⟨fun s => rfl, fun s len f stable rst start => ⟨_, step_of_stable stable, ?_⟩⟩
  simp [commandRes, rst, start]

/-- Settles O17: DECODE by its RES at a wrong length, REJ_LEN by the two branches of its equation. -/
theorem wrongLengthRejects : Obligations.WrongLengthRejects := by
  refine ⟨fun len f s wrong => ⟨?_, ?_⟩, fun s => ?_⟩
  · rw [exec_decode_eq, decodedRes_of_length wrong, rejectedRes]
  · exact (exec_rejLen_eq len s).trans (if_neg wrong)
  · exact (exec_rejLen_eq 14 s).trans (if_pos rfl)

end Sys2Proof.Machine
end

section
/-! SUPPORT. The flag rows and the unit rows run by themselves, and the flags, the mode, the unit string and PREFIX of an accepted
frame. -/

namespace Sys2Proof.Machine

/-! ### A row run by itself -/

theorem writesFlag_of_exec {i : Instr} {n : Nat} {b : Bool} (row : ∀ s, exec i s = writeStatusFlag n b s) :
    WritesFlag i n b :=
  fun s => ⟨_, row s, rfl, fun _ hj => writeFlag_getLsbD _ n b hj⟩

/-- A row that is a conditional write, with its table test as the condition: the write on its bytes, nothing on others. -/
theorem exec_of_writeIf {i : Instr} {c : Bool} {g : Res → Res} (row : ∀ s, exec i s = writeIf c g s)
    (test : c = true ↔ i.WellFormed) (s : State) :
    (i.WellFormed → exec i s = .next (s.withRes (g s.res))) ∧ (¬ i.WellFormed → exec i s = .next s) := by
  rw [row s, ← test]
  cases c with
  | true => exact ⟨fun _ => writeIf_true g s, fun fails => absurd rfl fails⟩
  | false => exact ⟨nofun, fun _ => writeIf_false g s⟩

theorem writesPfxWhen_of_exec {i : Instr} {c : Bool} {code : BitVec 3}
    (row : ∀ s, exec i s = writeIf c (·.writePfx code) s) (test : c = true ↔ i.WellFormed) : WritesPfxWhen i code :=
  exec_of_writeIf row test

theorem writesModeWhen_of_exec {i : Instr} {c : Bool} {code : BitVec 4}
    (row : ∀ s, exec i s = writeIf c (·.writeMode code) s) (test : c = true ↔ i.WellFormed) : WritesModeWhen i code :=
  exec_of_writeIf row test

/-- Settles O31: each row is one write of its own flag. -/
theorem flagRowsOfStatusByte1 : Obligations.FlagRowsOfStatusByte1 := by
  intro s1
  refine ⟨?_, ?_, ?_, ?_, ?_, ?_⟩
  all_goals exact writesFlag_of_exec fun _ => rfl

/-- Settles O32: each row is one write of its own flag. -/
theorem flagRowsOfStatusByte2 : Obligations.FlagRowsOfStatusByte2 := by
  intro s2
  refine ⟨?_, ?_, ?_, ?_⟩
  all_goals exact writesFlag_of_exec fun _ => rfl

/-- Settles O34: each row is a conditional write of its code; PFX_n tests byte 10 before byte 8, its table row the other way round. -/
theorem unitPrefixRows : Obligations.UnitPrefixRows := by
  intro s2 s3 s4
  have nano : WritesPfxWhen (.pfxNano s2 s4) 5 := writesPfxWhen_of_exec (fun _ => rfl) (by simp [and_comm])
  refine ⟨?_, ?_, ?_, ?_, ?_, nano⟩
  all_goals exact writesPfxWhen_of_exec (fun _ => rfl) beq_iff_eq

/-- Settles O35: each row is a conditional write of its code. -/
theorem modeRows : Obligations.ModeRows := by
  intro s4
  refine ⟨?_, ?_, ?_, ?_, ?_, ?_, ?_, ?_, ?_⟩
  all_goals exact writesModeWhen_of_exec (fun _ => rfl) beq_iff_eq

/-! ### Last-match-wins -/

theorem and_twoPow_ne_zero_iff (b : Byte) {k : Nat} (hk : k < 8) : b &&& BitVec.twoPow 8 k ≠ 0 ↔ b.getLsbD k = true := by
  have notZero : 0#8 ≠ BitVec.twoPow 8 k := by simpa using and_twoPow_eq_iff 0 hk
  rw [BitVec.and_twoPow]
  cases b.getLsbD k <;> simp [notZero.symm]

/-- Entries whose bits are clear leave the code as it is. -/
theorem lastMatch_of_clear {b : Byte} {n : Nat} {rom : List (Byte × BitVec n)} (clear : ∀ e ∈ rom, b &&& e.1 = 0)
    (code : BitVec n) : lastMatch b code rom = code := by
  induction rom with
  | nil => rfl
  | cons e rom ih =>
    obtain ⟨here, later⟩ := List.forall_mem_cons.1 clear
    rw [lastMatch, List.foldl_cons, if_neg (not_not.2 here)]
    exact ih later

/-- The last entry whose bit is set decides, whatever the entries before it did. -/
theorem lastMatch_of_last {b : Byte} {n : Nat} {e : Byte × BitVec n} (set : b &&& e.1 ≠ 0)
    {later : List (Byte × BitVec n)} (clear : ∀ e' ∈ later, b &&& e'.1 = 0) (earlier : List (Byte × BitVec n))
    (initial : BitVec n) : lastMatch b initial (earlier ++ e :: later) = e.2 := by
  rw [lastMatch, List.foldl_append, List.foldl_cons, if_pos set]
  exact lastMatch_of_clear clear e.2

/-- A ROM whose entries test the bits from `low` on, in order, with the codes 1, 2, 3 and so on (R121, R122). -/
def TestsBitsFrom {n : Nat} (low : Nat) (rom : List (Byte × BitVec n)) : Prop :=
  ∀ j, ∀ h : j < rom.length, rom[j] = (BitVec.twoPow 8 (low + j), BitVec.ofNat n (j + 1))

theorem romMode_testsBits : TestsBitsFrom 0 romMode := by
  unfold TestsBitsFrom
  decide

theorem romPfx_testsBits : TestsBitsFrom 4 romPfx := by
  unfold TestsBitsFrom
  decide

/-- Over such a ROM the highest set bit decides, for it is tested last (R511, R517). -/
theorem lastMatch_of_highestBit {n low : Nat} {rom : List (Byte × BitVec n)} (tests : TestsBitsFrom low rom) {b : Byte}
    {j : Nat} (hj : j < rom.length) (highest : HighestBit b (low + j)) (initial : BitVec n) :
    lastMatch b initial rom = BitVec.ofNat n (j + 1) := by
  obtain ⟨set, above⟩ := highest
  have decides : b &&& rom[j].1 ≠ 0 := by
    rw [tests j hj]
    exact (and_twoPow_ne_zero_iff b (BitVec.lt_of_getLsbD set)).2 set
  have clear : ∀ e ∈ rom.drop (j + 1), b &&& e.1 = 0 := by
    intro e mem
    obtain ⟨k, hk, rfl⟩ := List.mem_drop_iff_getElem.1 mem
    rw [tests (j + 1 + k) (by omega), BitVec.and_twoPow, above _ (by omega)]
    rfl
  calc lastMatch b initial rom
      = lastMatch b initial (rom.take j ++ rom[j] :: rom.drop (j + 1)) := by
        rw [List.getElem_cons_drop, List.take_append_drop]
    _ = rom[j].2 := lastMatch_of_last decides clear _ _
    _ = BitVec.ofNat n (j + 1) := by rw [tests j hj]

theorem modeDecode_of_highestBit {s4 : Byte} {n : Nat} (hn : n < 8) (highest : HighestBit s4 n) :
    modeDecode s4 = BitVec.ofNat 4 (n + 1) :=
  lastMatch_of_highestBit romMode_testsBits hn ((Nat.zero_add n).symm ▸ highest) 0

theorem pfxDecode_of_highestBit {s3 : Byte} {n : Nat} (h4 : 4 ≤ n) (h8 : n < 8) (highest : HighestBit s3 n) :
    pfxDecode s3 = BitVec.ofNat 3 (n - 3) := by
  obtain ⟨j, rfl⟩ := Nat.exists_eq_add_of_le h4
  have index : 4 + j - 3 = j + 1 := by omega
  rw [index]
  exact lastMatch_of_highestBit romPfx_testsBits (show j < 4 by omega) highest 0

theorem pfxDecode_of_clear {s3 : Byte} (clear : s3 &&& 0xF0 = 0) : pfxDecode s3 = 0 := by
  rw [← pfxDecode_masked, clear]
  rfl

/-- Where the override does not fire, the code of PREFIX_DECODE stays (R527). -/
theorem nanoOverride_of_not {mode : BitVec 4} {s2 : Byte} (idle : ¬ (mode = 3 ∧ s2.getLsbD 1 = true)) (pfx : BitVec 3) :
    nanoOverride pfx mode s2 = pfx := by
  rw [← and_twoPow_ne_zero_iff s2 (by decide)] at idle
  exact if_neg idle

/-! ### The flags and units of an accepted frame -/

/-- Settles O23: the accepted RES of each frame takes these four fields from bytes 7 to 11. -/
theorem valuePathLeavesFlagsAndUnits : Obligations.ValuePathLeavesFlagsAndUnits := by
  intro f g s passesF passesG byte7 byte8 byte9 byte10 byte11
  obtain ⟨_, _, _, _, _, resultF⟩ := decodedRes_of_passes passesF
  obtain ⟨_, _, _, _, _, resultG⟩ := decodedRes_of_passes passesG
  refine ⟨_, _, exec_decode_eq .., exec_decode_eq .., ?_⟩
  rw [State.withRes_res, State.withRes_res, resultF, resultG]
  simp only [acceptedRes, byte7, byte8, byte9, byte10, byte11, and_self]

/-- Settles O36: the mode of the accepted RES is MODE_DECODE of byte 10. -/
theorem acceptedModeIsHighestBit : Obligations.AcceptedModeIsHighestBit := by
  intro f s passes
  obtain ⟨_, _, _, _, _, result⟩ := decodedRes_of_passes passes
  refine ⟨_, exec_decode_eq .., ?_⟩
  rw [State.withRes_res, result]
  exact ⟨fun zero => congrArg modeDecode zero, fun n hn highest => modeDecode_of_highestBit hn highest⟩

/-- Settles O37: PREFIX of the accepted RES is the override over PREFIX_DECODE of byte 9. -/
theorem acceptedPrefixAndNanoOverride : Obligations.AcceptedPrefixAndNanoOverride := by
  intro f s passes
  obtain ⟨_, _, _, _, _, result⟩ := decodedRes_of_passes passes
  refine ⟨_, exec_decode_eq .., ?_⟩
  rw [State.withRes_res, result]
  refine ⟨nanoOverride_eq_nano _ _ (pfxDecode_lt _), fun idle => ?_⟩
  have decoded := nanoOverride_of_not idle (pfxDecode (frameByte f 9))
  exact ⟨fun clear => decoded.trans (pfxDecode_of_clear clear),
    fun n h4 h8 highest => decoded.trans (pfxDecode_of_highestBit h4 h8 highest)⟩

/-! ### The unit string -/

theorem trim_of_no_whitespace {t : Text} (visible : ∀ c ∈ t, isWhitespace c = false) : trim t = t := by
  have keeps {u : Text} (visible : ∀ c ∈ u, isWhitespace c = false) : u.dropWhile isWhitespace = u :=
    List.dropWhile_eq_self_iff.2 fun nonempty => by simp [visible _ (List.getElem_mem nonempty)]
  rw [trim, keeps visible, keeps (by simpa using visible), List.reverse_reverse]

theorem romPfxStr_visible : ∀ t ∈ romPfxStr, ∀ c ∈ t, isWhitespace c = false := by decide

theorem romModeStr_visible : ∀ t ∈ romModeStr, ∀ c ∈ t, isWhitespace c = false := by decide

/-- The unit string of two written codes is their two ROM strings in a row: neither holds a whitespace for `trim` to take (R528). -/
theorem unitText_eq_append {p : BitVec 3} {m : BitVec 4} {a b : Text} (pfxEntry : romPfxStr[p.toNat]? = some a)
    (modeEntry : romModeStr[m.toNat]? = some b) : unitText p m = .ok (a ++ b) := by
  have visible : ∀ c ∈ a ++ b, isWhitespace c = false := List.forall_mem_append.2
    ⟨romPfxStr_visible a (List.mem_of_getElem? pfxEntry), romModeStr_visible b (List.mem_of_getElem? modeEntry)⟩
  simp only [unitText, pfxEntry, modeEntry, trim_of_no_whitespace visible]

/-- UNIT writes no field on codes that have a string (R528). -/
theorem exec_unit_of_written {s : State} (pfxWritten : s.res.pfx.toNat < 6) (modeWritten : s.res.mode.toNat < 9) :
    exec .unit s = .next s := by
  obtain ⟨text, ok⟩ := unitText_ok pfxWritten modeWritten
  simp [exec, execUnit, ok]

/-- Settles O38: UNIT by `unitText`, which joins two ROM strings; the entries and the nine units are read off the ROMs. -/
theorem unitStringIsConcatenation : Obligations.UnitStringIsConcatenation := by
  refine ⟨fun s => exec_unit_of_written, fun p m pfxWritten modeWritten => ?_, ⟨rfl, rfl, rfl, rfl, rfl, rfl⟩,
    ⟨rfl, rfl, rfl, rfl, rfl, rfl, rfl, rfl, rfl⟩, rfl, rfl, rfl, rfl, rfl, rfl, rfl, rfl, rfl⟩
  have pfxEntry := List.getElem?_eq_getElem (l := romPfxStr) pfxWritten
  have modeEntry := List.getElem?_eq_getElem (l := romModeStr) modeWritten
  exact ⟨_, _, pfxEntry, modeEntry, unitText_eq_append pfxEntry modeEntry⟩

end Sys2Proof.Machine
end

section
/-! SUPPORT. What a host reads from RES: one equation per branch of the reading, the readable states, and the result of an overflow
frame. -/

namespace Sys2Proof.Machine

/-! ### The branches of the reading -/

/-- While VALID is 0 there is no result, whatever the other fields hold (R104). -/
theorem readResult_of_not_valid {r : Res} (noResult : r.valid = false) : readResult r = .ok .noResult := by
  rw [readResult, noResult]
  rfl

/-- With VALID 1 the codes of KIND are distinct, so each selects its own branch (R105, R611). -/
theorem readResult_of_kind_one {r : Res} (valid : r.valid = true) (kind : r.kind = 1) :
    readResult r = .ok .rejectedLength := by
  simp [readResult, valid, kind, kindInvalidLength]

theorem readResult_of_kind_two {r : Res} (valid : r.valid = true) (kind : r.kind = 2) :
    readResult r = .ok .rejectedEncoding := by
  simp [readResult, valid, kind, kindInvalidLength, kindInvalidEncoding]

theorem readResult_of_kind_zero {r : Res} (valid : r.valid = true) (kind : r.kind = 0) {unit : Text}
    (ok : unitText r.pfx r.mode = .ok unit) :
    readResult r = .ok (.measured
      { sign := signText r, value := readValue r, unit := unit, status := statusTags r.status }) := by
  simp [readResult, valid, kind, ok, kindInvalidLength, kindInvalidEncoding, kindOk]

/-- Settles O40: each clause is one branch of the reading. -/
theorem measurementReadout : Obligations.MeasurementReadout := fun _ =>
  ⟨readResult_of_not_valid, readResult_of_kind_one, readResult_of_kind_two,
    fun valid kind _ ok => readResult_of_kind_zero valid kind ok⟩

/-! ### Legal results can be read -/

theorem kind_cases (kind : BitVec 2) : kind = 0 ∨ kind = 1 ∨ kind = 2 ∨ kind = 3 := by
  revert kind; decide

/-- Only KIND 3 and a unit code without a string stop a reading, and legal contents hold neither (D29). -/
theorem Res.Legal.readable {r : Res} (legal : r.Legal) : ∃ reading, readResult r = .ok reading := by
  cases valid : r.valid with
  | false => exact ⟨_, readResult_of_not_valid valid⟩
  | true =>
    obtain kind | kind | kind | kind := kind_cases r.kind
    · obtain ⟨unit, ok⟩ := unitText_ok legal.pfx_written legal.mode_written
      exact ⟨_, readResult_of_kind_zero valid kind ok⟩
    · exact ⟨_, readResult_of_kind_one valid kind⟩
    · exact ⟨_, readResult_of_kind_two valid kind⟩
    · exact absurd kind legal.kind_written

/-- Settles O47: the invariant keeps RES legal. -/
theorem invariantStatesAreReadable : Obligations.InvariantStatesAreReadable := fun _ inv => inv.legal.readable

/-! ### An overflow frame -/

/-- An accepted frame reads as a measurement: its unit codes are decoded, so they have a string (R528, R611). -/
theorem readResult_acceptedRes (empty : Bool) (char : Byte) (ol : Bool) (mant : BitVec 14) (scale : BitVec 2) (f : Frame) :
    ∃ m, readResult (acceptedRes empty char ol mant scale f) = .ok (.measured m) ∧
      m.sign = signText (acceptedRes empty char ol mant scale f) ∧
      m.value = readValue (acceptedRes empty char ol mant scale f) := by
  have pfxWritten := nanoOverride_lt (modeDecode (frameByte f 10)) (frameByte f 8) (pfxDecode_lt (frameByte f 9))
  obtain ⟨unit, ok⟩ := unitText_ok pfxWritten (modeDecode_lt (frameByte f 10))
  exact ⟨_, readResult_of_kind_zero rfl rfl ok, rfl, rfl⟩

/-- Settles O22: the fields of the overflow RES, and the measurement it reads as. -/
theorem overflowFrameReadsOL : Obligations.OverflowFrameReadsOL := by
  intro f s sign point overflow
  obtain ⟨m, reading, signRead, valueRead⟩ := readResult_acceptedRes true 0 true 0 0 f
  refine ⟨_, m, exec_decode_eq .., ?_⟩
  rw [State.withRes_res, decodedRes_of_overflow ⟨sign, point, .inl overflow⟩ overflow]
  exact ⟨rfl, rfl, rfl, rfl, rfl, rfl, reading, valueRead, signRead⟩

end Sys2Proof.Machine
end

section
/-! SUPPORT. The value of a numeric frame: its mantissa and scale, and the number that the punctuated digit string denotes. -/

namespace Sys2Proof.Machine

/-! ### The mantissa and the scale of a numeric frame -/

/-- The 14 bits of VAL_MANT hold every mantissa (R109). -/
theorem mantissa_toNat {f1 f2 f3 f4 : Byte} (bound : mantissa f1 f2 f3 f4 ≤ 9999) :
    (BitVec.ofNat 14 (mantissa f1 f2 f3 f4)).toNat = mantissa f1 f2 f3 f4 :=
  (BitVec.toNat_ofNat ..).trans (Nat.mod_eq_of_lt (by omega))

/-- The 2 bits of VAL_SCALE hold every scale (R110). -/
theorem scaleOf_toNat (p : Nat) : (BitVec.ofNat 2 (scaleOf p)).toNat = scaleOf p :=
  (BitVec.toNat_ofNat ..).trans (Nat.mod_eq_of_lt (by unfold scaleOf; split <;> omega))

/-- From decpos 3 on the point stands after the third digit (R607, R612). -/
theorem scaleOf_of_three_le {p : Nat} (h : 3 ≤ p) : scaleOf p = 1 := by
  rw [scaleOf, if_neg (by omega), min_eq_right h]

theorem three_le_decpos {f6 : Byte} (h : 0x33 ≤ f6) : 3 ≤ decpos f6 := by
  unfold decpos digitValue
  bv_omega

/-- The value that a numeric frame writes: VAL_OL 0, the digits as a number, and the scale of its decpos (R603, R612). -/
theorem decodedRes_value {f : Frame} (passes : PassesChecks f) (digits : HasDigits f) :
    (decodedRes 14 f).kind = 0 ∧ (decodedRes 14 f).valOl = false ∧
    (decodedRes 14 f).valMant.toNat = mantissa (frameByte f 1) (frameByte f 2) (frameByte f 3) (frameByte f 4) ∧
    (decodedRes 14 f).valMant.toNat ≤ 9999 ∧
    (decodedRes 14 f).valScale = BitVec.ofNat 2 (scaleOf (decpos (frameByte f 6))) := by
  have legal := decodedRes_legal 14 f
  have bound : mantissa (frameByte f 1) (frameByte f 2) (frameByte f 3) (frameByte f 4) ≤ 9999 := by
    obtain ⟨digit1, digit2, digit3, digit4⟩ := digits
    exact mantissa_le digit1 digit2 digit3 digit4
  refine ⟨?_, ?_, ?_, legal.mant_bound, ?_⟩ <;> rw [decodedRes_of_digits passes digits, acceptedRes]
  exact mantissa_toNat bound

/-- Settles O24: the mantissa by `decodedRes_value`, the scale at each decpos by `scaleOf`. -/
theorem numericFrameValue : Obligations.NumericFrameValue := by
  intro f s sign point digits
  obtain ⟨kind, valOl, mant, bound, scale⟩ := decodedRes_value ⟨sign, point, .inr digits⟩ digits
  refine ⟨_, exec_decode_eq .., kind, valOl, mant, bound, ?_⟩
  rw [State.withRes_res, scale]
  refine ⟨fun byte => ?_, fun byte => ?_, fun byte => ?_, fun high => ?_⟩
  · rw [byte]; rfl
  · rw [byte]; rfl
  · rw [byte]; rfl
  · rw [scaleOf_of_three_le (three_le_decpos high)]; rfl

/-! ### Parsing a punctuated digit string -/

/-- Every character of the text is a digit. -/
def AllDigits (t : Text) : Prop := ∀ c ∈ t, 0x30 ≤ c ∧ c ≤ 0x39

/-- The number that the digits of a text continue from `acc`, most significant digit first. -/
def digitsFrom (acc : Nat) (t : Text) : Nat := t.foldl (fun n c => 10 * n + (c - 0x30)) acc

theorem digitsFrom_append (acc : Nat) (t u : Text) : digitsFrom acc (t ++ u) = digitsFrom (digitsFrom acc t) u :=
  List.foldl_append

/-- Digits never stop the parse: it goes on after them with their number, and their count once the point has been read. -/
theorem parseFrom_append_digits {t : Text} (digits : AllDigits t) (acc : Nat) (fraction : Option Nat) (rest : Text) :
    parseFrom acc fraction (t ++ rest) = parseFrom (digitsFrom acc t) (fraction.map (· + t.length)) rest := by
  induction t generalizing acc fraction with
  | nil => cases fraction <;> rfl
  | cons c cs ih =>
    obtain ⟨digit, later⟩ := List.forall_mem_cons.1 digits
    rw [List.cons_append, parseFrom, if_pos digit, ih later, digitsFrom, digitsFrom, List.foldl_cons, Option.map_map]
    congr 2
    funext n
    simp only [Function.comp_apply, List.length_cons]
    omega

theorem parseFrom_digits {t : Text} (digits : AllDigits t) (acc : Nat) (fraction : Option Nat) :
    parseFrom acc fraction t = some { mant := digitsFrom acc t, scale := (fraction.map (· + t.length)).getD 0 } := by
  simpa [parseFrom] using parseFrom_append_digits digits acc fraction []

/-- The first point of a text starts the fraction. -/
theorem parseFrom_point (acc : Nat) (rest : Text) : parseFrom acc none (pointChar :: rest) = parseFrom acc (some 0) rest := by
  simp [parseFrom, pointChar]

/-- The parse of four punctuated digits cannot fail: the point moves no digit, and `scaleOf` counts the digits after it
(R612, R706). -/
theorem parseDecimal_insertPoint {t : Text} (digits : AllDigits t) (four : t.length = 4) (p : Nat) :
    parseDecimal (insertPoint t p) = some { mant := digitsFrom 0 t, scale := scaleOf p } := by
  unfold parseDecimal insertPoint scaleOf
  split
  · exact parseFrom_digits digits 0 none
  · have before : AllDigits (t.take (min p 3)) := fun c mem => digits c (List.mem_of_mem_take mem)
    have after : AllDigits (t.drop (min p 3)) := fun c mem => digits c (List.mem_of_mem_drop mem)
    rw [List.append_assoc, parseFrom_append_digits before, List.singleton_append, Option.map_none, parseFrom_point,
      parseFrom_digits after, ← digitsFrom_append, List.take_append_drop]
    simp [four]

theorem digitsFrom_digitText (f1 f2 f3 f4 : Byte) : digitsFrom 0 (digitText f1 f2 f3 f4) = mantissa f1 f2 f3 f4 := by
  simp only [digitsFrom, digitText, List.foldl_cons, List.foldl_nil, mantissa, digitValue]
  omega

theorem digitText_allDigits {f : Frame} (digits : HasDigits f) :
    AllDigits (digitText (frameByte f 1) (frameByte f 2) (frameByte f 3) (frameByte f 4)) := by
  simpa [AllDigits, digitText, HasDigits, inDigitRange, BitVec.le_def] using digits

/-- The string of a numeric frame is read as the mantissa and the scale that its RES holds (R608, R612). -/
theorem parseDecimal_of_passes {f : Frame} (passes : PassesChecks f) (digits : HasDigits f) :
    parseDecimal (insertPoint (digitText (frameByte f 1) (frameByte f 2) (frameByte f 3) (frameByte f 4))
      (decpos (frameByte f 6))) =
        some { mant := (decodedRes 14 f).valMant.toNat, scale := (decodedRes 14 f).valScale.toNat } := by
  obtain ⟨-, -, mant, -, scale⟩ := decodedRes_value passes digits
  rw [parseDecimal_insertPoint (digitText_allDigits digits) rfl, digitsFrom_digitText, mant, scale, scaleOf_toNat]

theorem readValue_of_not_overflow {r : Res} (noOverflow : r.valOl = false) :
    readValue r = .number { mant := r.valMant.toNat, scale := r.valScale.toNat } := by
  rw [readValue, noOverflow]
  rfl

/-- Dividing by a power of ten makes no number greater. -/
theorem Decimal.toRat_bounds (d : Decimal) : 0 ≤ d.toRat ∧ d.toRat ≤ d.mant := by
  have power : 1 ≤ (10 : ℚ) ^ d.scale := one_le_pow₀ (by norm_num)
  exact ⟨by unfold Decimal.toRat; positivity, div_le_self d.mant.cast_nonneg power⟩

/-- Settles O25: the string is read as the value pair of RES, a mantissa of at most 9999 over a power of ten. -/
theorem valueIsThePunctuatedString : Obligations.ValueIsThePunctuatedString := by
  intro f s sign point digits
  have passes : PassesChecks f := ⟨sign, point, .inr digits⟩
  obtain ⟨-, valOl, -, bound, -⟩ := decodedRes_value passes digits
  obtain ⟨nonneg, le_mant⟩ := Decimal.toRat_bounds ⟨(decodedRes 14 f).valMant.toNat, (decodedRes 14 f).valScale.toNat⟩
  exact ⟨_, _, exec_decode_eq .., parseDecimal_of_passes passes digits, readValue_of_not_overflow valOl, rfl, nonneg,
    le_mant.trans (mod_cast bound)⟩

end Sys2Proof.Machine
end

section
/-! SUPPORT. The value rows run by themselves: overflow, sign, mantissa, decimal point and bar byte. -/

namespace Sys2Proof.Machine

theorem writeIf_of_failed_test {c : Bool} (fails : c = false) (g : Res → Res) (s : State) : writeIf c g s = .next s := by
  rw [fails, writeIf_false]

/-- Settles O26: each row is a conditional write, SIGN_VERBATIM on the condition that the other two do not meet. -/
theorem overflowAndSignRows : Obligations.OverflowAndSignRows := by
  intro s f0 f1 f2 f3 f4
  refine ⟨fun pattern => ?_, fun noPattern => ?_⟩
  · have ol := (isOverflow_iff ..).2 pattern
    exact ⟨writeIf_of_test ol Res.writeOverflow s, writeIf_of_test ol (·.writeSign true 0) s,
      writeIf_of_failed_test (by rw [ol]; rfl) (·.writeSign false f0) s⟩
  · have notOl : isOverflow f1 f2 f3 f4 = false := by rwa [← Bool.not_eq_true, isOverflow_iff]
    exact ⟨writeIf_of_failed_test notOl Res.writeOverflow s, writeIf_of_failed_test notOl (·.writeSign true 0) s,
      writeIf_of_test (by rw [notOl]; rfl) (·.writeSign false f0) s⟩

/-- Settles O27: VAL_NUM branches on the digit check alone. -/
theorem mantissaRow : Obligations.MantissaRow := by
  intro s f1 f2 f3 f4
  refine ⟨fun digit1 digit2 digit3 digit4 => ?_, fun noDigits => ?_⟩
  · exact if_pos ((areDigits_iff ..).2 ⟨digit1, digit2, digit3, digit4⟩)
  · exact if_neg (mt (areDigits_iff ..).1 noDigits)

theorem writesScaleWhen_of_exec {i : Instr} {c : Bool} {code : BitVec 2}
    (row : ∀ s, exec i s = writeIf c (·.writeScale code) s) (test : c = true ↔ i.WellFormed) : WritesScaleWhen i code :=
  exec_of_writeIf row test

/-- Settles O28: each row is a conditional write of its scale; DP_3PLUS tests a range of bytes, the others one byte. -/
theorem decimalPointRows : Obligations.DecimalPointRows := by
  intro f6
  have threePlus : WritesScaleWhen (.dp3Plus f6) 1 := writesScaleWhen_of_exec (fun _ => rfl) (by simp [Instr.WellFormed])
  refine ⟨?_, ?_, ?_, threePlus⟩
  all_goals exact writesScaleWhen_of_exec (fun _ => rfl) beq_iff_eq

/-- Settles O51: BAR_RAW has no condition, and its write is that of the one field. -/
theorem barRowWritesItsByte : Obligations.BarRowWritesItsByte := fun b s =>
  show execBarRaw b s = .next (s.withRes (s.res.writeBar b)) from rfl

end Sys2Proof.Machine
end

section
/-! SUPPORT. The exception of a DECODE: the kind that is reported, every field written, and the block ready at the next edge. -/

namespace Sys2Proof.Machine

/-- No state stops the block: every edge, stable or not, answers a next state (R706, R804). -/
theorem step_completes (s : State) : ∃ t, step s = .next t := by
  obtain ⟨-, r, -, next⟩ | ⟨-, next⟩ := step_next s
  · exact ⟨_, next⟩
  · exact ⟨_, next⟩

/-- A frame that passes every check is reported as OK (R407). -/
theorem decodedRes_kind_of_passes {f : Frame} (passes : PassesChecks f) : (decodedRes 14 f).kind = 0 := by
  obtain ⟨_, _, _, _, _, result⟩ := decodedRes_of_passes passes
  rw [result]
  rfl

/-- Settles O19: DECODE writes the RES of the exception, and the edge after it completes as every edge does. -/
theorem rejectionWritesEveryField : Obligations.RejectionWritesEveryField := by
  refine ⟨fun _ _ => rfl, fun len f s rejected => ⟨?_, ?_⟩⟩
  · rw [exec_decode_eq, decodedRes_of_rejected rejected, raiseReject_eq]
  · obtain ⟨next, ready⟩ := step_completes (s.withRes (rejectedRes (if len = 14 then 2 else 1)))
    exact ⟨_, next, raiseReject_eq .., ready⟩

/-- Settles O20: a wrong length decides the kind alone, and at length 14 the character checks do; the three codes differ. -/
theorem firstFailedCheckIsReported : Obligations.FirstFailedCheckIsReported := by
  intro len f s
  refine ⟨_, exec_decode_eq .., ?_⟩
  rw [State.withRes_res]
  by_cases length : len = 14
  · subst length
    by_cases passes : PassesChecks f
    · rw [decodedRes_kind_of_passes passes]
      exact ⟨iff_of_false (by decide) (absurd rfl), iff_of_false (by decide) fun h => h.2 passes,
        iff_of_true rfl ⟨rfl, passes⟩⟩
    · rw [decodedRes_of_failed_check passes, rejectedRes]
      exact ⟨iff_of_false (by decide) (absurd rfl), iff_of_true rfl ⟨rfl, passes⟩,
        iff_of_false (by decide) fun h => passes h.2⟩
  · rw [decodedRes_of_length length, rejectedRes]
    exact ⟨iff_of_true rfl length, iff_of_false (by decide) fun h => length h.1,
      iff_of_false (by decide) fun h => length h.1⟩

end Sys2Proof.Machine
end

section
/-! SUPPORT. RESET and hazards: what a RESET edge, a first command and an edge without setup and hold do to RES. -/

namespace Sys2Proof.Machine

/-- A RESET or DECODE replaces the whole of RES, so its result is legal whatever stood there (R800, R802). -/
theorem commandRes_legal_of_command {e : Edge} (command : e.rst = true ∨ e.start = true) (r : Res) :
    (commandRes e r).Legal := by
  unfold commandRes
  split
  · exact cleared_legal
  · next noReset =>
    rw [if_pos (command.resolve_left noReset)]
    exact decodedRes_legal ..

/-- Settles O46: the command's RES is legal without the invariant before it, and the script stays stable. -/
theorem firstCommandMakesResLegal : Obligations.FirstCommandMakesResLegal := by
  intro s inputs command
  refine ⟨_, step_of_stable inputs.1, ?_, (inputs.withRes _).advance⟩
  simpa using commandRes_legal_of_command command s.res

/-- A well-timed RESET edge clears RES, whatever stands on the other ports (R800, R801). -/
theorem step_of_reset {s : State} (stable : s.ports.stable = true) (rst : s.ports.rst = true) :
    step s = .next (s.withRes Res.cleared).advance := by
  rw [step_of_stable stable, commandRes, if_pos rst]

/-- After a well-timed RESET edge nothing is left of the presented levels: the script's next ones are on the ports (R801). -/
theorem step_of_reset_cons {s : State} {e : Edge} {es : List Edge} (stable : s.ports.stable = true)
    (rst : s.ports.rst = true) (script : s.script = e :: es) :
    step s = .next { s with res := Res.cleared, ports := e, script := es } := by
  rw [step_of_reset stable rst, State.advance_cons (s := s.withRes Res.cleared) script]
  rfl

/-- Settles O3: both edges clear RES, and the host's next levels replace the frame and the length in which they differ. -/
theorem resetBeatsStart : Obligations.ResetBeatsStart := by
  refine fun s stable rst _ => ⟨⟨_, step_of_reset stable rst, by simp⟩, fun e es len f script => ?_⟩
  rw [step_of_reset_cons stable rst script]
  exact step_of_reset_cons (e := e) (es := es) stable rst script

/-- Settles O9: the cleared RES, written out field by field. -/
theorem resetClearsEveryField : Obligations.ResetClearsEveryField := exec_reset_eq

/-- Settles O15: both kinds of edge answer a next state. -/
theorem everyEdgeCompletes : Obligations.EveryEdgeCompletes := step_completes

/-- An edge that violates setup or hold runs no command: RES takes the free value and the host moves on (R805, logs 4 and 12). -/
theorem step_of_unstable {s : State} (unstable : s.ports.stable = false) : step s = .next s.unstableEdge.advance := by
  obtain ⟨stable, -⟩ | ⟨-, next⟩ := step_next s
  · simp [unstable] at stable
  · exact next

/-- Settles O50: the host's next levels leave RES and the index as the edge wrote them. -/
theorem unstableEdgeLeavesAnyValue : Obligations.UnstableEdgeLeavesAnyValue := by
  refine fun s unstable => ⟨_, step_of_unstable unstable, by simp, by simp, fun script => ?_, fun e es script => ?_⟩
  · simp [State.advance_nil (s := s.unstableEdge) script, script]
  · simp [State.advance_cons (s := s.unstableEdge) script]

end Sys2Proof.Machine
end

section
/-! SUPPORT. Codes that no rule writes: they have no unit string, and UNIT and the reading stop on them by name. -/

namespace Sys2Proof.Machine

/-- ROM.PREFIX_STR ends at code 5 and is looked up first, so codes 6 and 7 fault whatever the mode is (R123, U11, log 9). -/
theorem unitText_of_unwritten_pfx {pfx : BitVec 3} (unwritten : 6 ≤ pfx.toNat) (mode : BitVec 4) :
    unitText pfx mode = .error .pfxCode := by
  have noEntry : romPfxStr[pfx.toNat]? = none := List.getElem?_eq_none unwritten
  rw [unitText, noEntry]

/-- ROM.MODE_STR ends at code 8, and beside a written prefix it is the mode that is reported (R124, U11, log 9). -/
theorem unitText_of_unwritten_mode {pfx : BitVec 3} {mode : BitVec 4} (pfxWritten : pfx.toNat < 6)
    (unwritten : 9 ≤ mode.toNat) : unitText pfx mode = .error .modeCode := by
  have pfxEntry := List.getElem?_eq_getElem (l := romPfxStr) pfxWritten
  have noEntry : romModeStr[mode.toNat]? = none := List.getElem?_eq_none unwritten
  rw [unitText, pfxEntry, noEntry]

/-- UNIT passes on the fault of its unit string (R528, U11). -/
theorem exec_unit_of_error {s : State} {e : Fault} (error : unitText s.res.pfx s.res.mode = .error e) :
    exec .unit s = .fault e := by
  simp [exec, execUnit, error]

/-- Settles O39: UNIT faults as its unit string does, by the prefix first and by the mode beside a written prefix. -/
theorem unitRowFaultsOnUnwrittenCodes : Obligations.UnitRowFaultsOnUnwrittenCodes := fun _ =>
  ⟨fun pfx => exec_unit_of_error (unitText_of_unwritten_pfx pfx _),
    fun pfxWritten mode => exec_unit_of_error (unitText_of_unwritten_mode pfxWritten mode)⟩

/-- KIND 3 is none of the three codes that are tested (R105, U10). -/
theorem readResult_of_kind_three {r : Res} (valid : r.valid = true) (kind : r.kind = 3) :
    readResult r = .error .kindCode := by
  simp [readResult, valid, kind, kindInvalidLength, kindInvalidEncoding, kindOk]

/-- An accepted result is read no further than the fault of its unit string (R611, U11). -/
theorem readResult_of_unit_error {r : Res} (valid : r.valid = true) (kind : r.kind = 0) {e : Fault}
    (error : unitText r.pfx r.mode = .error e) : readResult r = .error e := by
  simp [readResult, valid, kind, error, kindInvalidLength, kindInvalidEncoding, kindOk]

/-- The reserved bits are tested before any field of the word is read (R103, U12). -/
theorem readResWord_of_reserved {w : BitVec 64} (reserved : w.extractLsb' 54 10 ≠ 0) :
    readResWord w = .error .reservedBits := if_pos reserved

/-- Settles O41: each clause is one failing branch of the reading; those of the unit come from its string. -/
theorem readingUnwrittenCodesFaults : Obligations.ReadingUnwrittenCodesFaults :=
  ⟨fun _ valid =>
    ⟨readResult_of_kind_three valid,
      fun kind pfx => readResult_of_unit_error valid kind (unitText_of_unwritten_pfx pfx _),
      fun kind pfxWritten mode => readResult_of_unit_error valid kind (unitText_of_unwritten_mode pfxWritten mode)⟩,
    fun _ => readResWord_of_reserved⟩

end Sys2Proof.Machine
end
